-- ==== Sys2Proof/Word.lean ====
section
/-! DEFINITION. The word types of SLN-LINK (00_scope.md R8): all numbers are unsigned, a byte has 8 bits, a
register of the host port has 32 bits. -/

namespace Sys2Proof

/-- A byte (R8). -/
abbrev Byte := BitVec 8

/-- A 16-bit quantity: the checksum fields (R131) and ACK_TIMEOUT_MS (R35). -/
abbrev Half := BitVec 16

/-- A register of the host port (R22). -/
abbrev Word := BitVec 32

end Sys2Proof
end

