-- ==== Sys2Proof/Config.lean ====
section
/-! DEFINITION. What is fixed for one instance of the block (00_scope.md R5), the events of the agents around it
(R4, 30_encoding.md R98), and the one free value: the environment's choice of events. -/

namespace Sys2Proof

/-- The OPEN parameters of R5 and R79. They are read-only for the whole life of the instance. -/
structure Params where
  /-- N_NODES, the number of logical addresses (R5). -/
  nNodes : Nat
  /-- FLAG_BYTE (R5). -/
  flagByte : Byte
  /-- ESC_BYTE (R5). -/
  escByte : Byte
  /-- SLN_BASE, the bus address of the 1 KiB register window (R79). -/
  slnBase : Nat
  deriving DecidableEq, Repr, Inhabited

/-- The default parameters of R5. DESIGN CHOICE (log 7): R79 gives SLN_BASE no default, the model's is 0. -/
def Params.default : Params :=
  { nNodes := 16, flagByte := 0x7E, escByte := 0x7D, slnBase := 0 }

/-- MAX_FRAG: the most data bytes one frame carries (R5). -/
def maxFrag : Nat := 23

/-- MAX_PKT: the largest packet (R5). -/
def maxPkt : Nat := 128

/-- BCAST_ADDR: the broadcast hardware address (R5). -/
def bcastAddr : Byte := 0xFF

/-- RX_MAX: the most bytes PHY-RX delivers of one frame (R5, D45). -/
def rxMax : Nat := 64

/-- One atomic step of an agent (R4, R98), or the hardware reset input (R56). -/
inductive Event where
  /-- The host writes `v` at byte offset `off` with an access of `size` bytes (R72, R74). -/
  | hostWrite (off : BitVec 10) (size : Nat) (v : Word)
  /-- The host reads at byte offset `off` with an access of `size` bytes (R71, R74). -/
  | hostRead (off : BitVec 10) (size : Nat)
  /-- PHY-RX comes to offer the frame `f` (R55(c), log 3). -/
  | rxOffer (f : List Byte)
  /-- The block takes the frame PHY-RX offers (R190). -/
  | rxTake
  /-- The block hands a waiting frame to PHY-TX (R180). -/
  | txIssue
  /-- PHY-TX completes its frame, with the success bit the environment draws (R181). -/
  | txDone (ok : Bool)
  /-- One millisecond has elapsed (R185). -/
  | msTick
  /-- Hardware reset (R56, R290). -/
  | hardReset
  deriving DecidableEq, Repr, Inhabited

/-- FREE VALUE (log 1): which event comes next once the agenda of the state is used up, by the number of the
choice. It has no body: every interleaving (K6), every offered frame (K7) and every success bit (K5) is
possible, and no proof can see which. -/
opaque Config.environment : Nat → Event

end Sys2Proof
end

