-- ==== Sys2Proof/Syntax.lean ====
section
/-! DEFINITION. The commands of SLN-LINK: one constructor per row of spec/opcode_table.json (30_encoding.md R93).
A command word holds an opcode only; the operands are fields of ARG0 and ARG1, read when the command runs (R91,
R92), so no constructor has an argument. -/

namespace Sys2Proof

/-- A host command (R93). -/
inductive Instr where
  | nop
  | txAlloc
  | txDiscard
  | arqSend
  | arqAbort
  | rxRelease
  | cksumGen
  | cksumVerify
  | stuff
  | unstuff
  | parsePacket
  | notifyPingResponse
  | age
  | setOwnSeq
  | areNodesLinked
  | isDeviceOnline
  | readLsRecord
  | readNbRecord
  | softReset
  deriving DecidableEq, Repr, Inhabited

end Sys2Proof
end

