-- ==== Sys2Proof/WellFormed.lean ====
section
/-! DEFINITION. Which parameters, frames and commands are inside the spec. -/

namespace Sys2Proof

/-- FLAG_BYTE and ESC_BYTE differ (41_framer.md R148). -/
def Params.framingOk (p : Params) : Bool := p.flagByte != p.escByte

/-- N_NODES is in 1..32 (00_scope.md R5). -/
def Params.nodesOk (p : Params) : Bool := decide (1 ≤ p.nNodes) && decide (p.nNodes ≤ 32)

/-- An instance inside this spec (60_exceptions.md R264, K31). -/
def Params.wf (p : Params) : Bool := p.framingOk && p.nodesOk

/-- A frame PHY-RX may offer has 1..64 bytes (42_arq.md R190). -/
def frameOk (f : List Byte) : Bool := decide (1 ≤ f.length) && decide (f.length ≤ rxMax)

/-- An access of the host port that is defined: aligned and of 4 bytes (20_memory.md R74). -/
def accessOk (off : BitVec 10) (size : Nat) : Bool := decide (size = 4) && decide (off.toNat % 4 = 0)

/-- Every command is well-formed: a command word holds no operand (R91) and operand values are checked when the
command runs, by its own rule (R253). -/
def Instr.wf : Instr → Bool
  | .nop | .txAlloc | .txDiscard | .arqSend | .arqAbort | .rxRelease | .cksumGen | .cksumVerify | .stuff | .unstuff
  | .parsePacket | .notifyPingResponse | .age | .setOwnSeq | .areNodesLinked | .isDeviceOnline | .readLsRecord
  | .readNbRecord | .softReset => true

end Sys2Proof
end

