-- ==== Sys2Proof/Decode.lean ====
section
/-! DEFINITION. The command word (30_encoding.md R90, R91, R93, R94): the decoder, total on every 32-bit word, and
the encoder. -/

namespace Sys2Proof

/-- Why a word is no command. -/
inductive DecodeError where
  /-- The opcode is not in R93's table: the command ends with ILLEGAL_CMD (R94, R252). -/
  | illegalOpcode (op : Byte)
  deriving DecidableEq, Repr

/-- The opcode field of a command word: `v[7:0]` (R90). -/
def opcodeField (v : Word) : Byte := v.extractLsb' 0 8

/-- R93's table, row by row. -/
def opcodeTable : List (Byte × Instr) :=
  [(0x00, .nop), (0x01, .txAlloc), (0x02, .txDiscard), (0x03, .arqSend), (0x04, .arqAbort), (0x05, .rxRelease),
   (0x10, .cksumGen), (0x11, .cksumVerify), (0x12, .stuff), (0x13, .unstuff),
   (0x20, .parsePacket), (0x21, .notifyPingResponse), (0x22, .age), (0x23, .setOwnSeq),
   (0x30, .areNodesLinked), (0x31, .isDeviceOnline), (0x32, .readLsRecord), (0x33, .readNbRecord),
   (0xFF, .softReset)]

/-- The row of a table whose opcode is `op`. -/
def lookupOpcode (op : Byte) : List (Byte × Instr) → Option Instr
  | [] => none
  | (o, i) :: rows => if o = op then some i else lookupOpcode op rows

/-- Decoding a command word (R90): bits 31:8 are ignored, and an opcode outside R93's table is rejected. -/
def decode (v : Word) : Except DecodeError Instr :=
  match lookupOpcode (opcodeField v) opcodeTable with
  | some i => .ok i
  | none => .error (.illegalOpcode (opcodeField v))

/-- The opcode of a command, from R93's table. -/
def opcode : Instr → Byte
  | .nop => 0x00
  | .txAlloc => 0x01
  | .txDiscard => 0x02
  | .arqSend => 0x03
  | .arqAbort => 0x04
  | .rxRelease => 0x05
  | .cksumGen => 0x10
  | .cksumVerify => 0x11
  | .stuff => 0x12
  | .unstuff => 0x13
  | .parsePacket => 0x20
  | .notifyPingResponse => 0x21
  | .age => 0x22
  | .setOwnSeq => 0x23
  | .areNodesLinked => 0x30
  | .isDeviceOnline => 0x31
  | .readLsRecord => 0x32
  | .readNbRecord => 0x33
  | .softReset => 0xFF

/-- The command word a host writes for a command (R97): the opcode, with the ignored bits 0. -/
def encode (i : Instr) : Word := (opcode i).setWidth 32

/-- The decoder on a word numbered as spec/opcode_table.json numbers it. A command is one 32-bit word (R91), so
the bits above `nbits` are 0 and `w` is the word itself. -/
def decodeTableWord (nbits w : Nat) : Option Instr :=
  match decode (BitVec.ofNat 32 (w % 2 ^ nbits)) with
  | .ok i => some i
  | .error _ => none

end Sys2Proof
end

