-- ==== Sys2Proof/Machine/State.lean ====
section
/-! DEFINITION. The architectural state of SLN-LINK (10_state.md) as plain data, the reasons a step can stop, and the
state after hardware reset (70_reset_and_hazards.md R290).

Each element has one home. The registers that R22 calls live views (parts of STATUS, RX_INFO.RX_OFFSET,
RX_EVENT.RAW_LEN, ARQ_TIMER, TX_INFO) are computed from these fields where the port is read (Machine/HostPort.lean).
Lengths, offsets and counts of R45, R46 and R48 are Nat; that they keep the ranges the rules give is
Safety.lean's `RangeInv` (log 11). -/

namespace Sys2Proof.Machine

/-- Why the machine stops with a fault: never. "Nothing in SLN-LINK is fatal" (60_exceptions.md R264): the block has
no fault state, so this type has no constructor. Safe: no behaviour is cut short by it. -/
inductive Fault where
  deriving DecidableEq, Repr

/-- Why a step is refused. -/
inductive Refusal where
  /-- An instruction without a meaning, by its mnemonic. No arm of `exec` raises it. Safe. -/
  | notModelled (mnemonic : String)
  /-- `step`, when FLAG_BYTE = ESC_BYTE: the instance is outside the spec (R148, R264, K31). Safe. -/
  | flagEqualsEsc
  /-- `step`, when N_NODES is not in 1..32: the instance is outside the spec (R5, R264, K31). Safe. -/
  | nodeCountOutOfRange
  deriving DecidableEq, Repr

/-! ## Names for the coded fields -/

/-- `S.arq_state` (R45). -/
inductive ArqState where
  | idle | sendingFragment | awaitAck | done
  deriving DecidableEq, Repr

/-- `S.tx_inflight` (R46). -/
inductive TxInflight where
  | none | ack | data | orphan
  deriving DecidableEq, Repr

/-- CMD_STATUS.CODE (30_encoding.md R120). -/
inductive CmdCode where
  | ok | illegalCmd | busy | disabled | noBuffer | packetTooBig | invalidArg
  deriving DecidableEq, Repr

/-- TX_RESULT.CODE (R34). -/
inductive TxCode where
  | none | transmissionSuccess | nodeUnreachable | aborted
  deriving DecidableEq, Repr

/-- RX_EVENT.EVENT (R121). -/
inductive RxCode where
  | none | moreFramesExpected | finalFrame | addressMismatch | unstuffError | formatError | checksumError
  | controlAck | controlRtc | controlCtc | unknownControl | rxBusy | overflow | duplicate
  deriving DecidableEq, Repr

/-- PKT_STATUS.VCODE (R122). -/
inductive VCode where
  | none | valid | tooShort | badMode | checksumFail | badType | lengthMismatch
  deriving DecidableEq, Repr

/-- PKT_STATUS.ACTION (R122). -/
inductive RecAction where
  | none | lsAcceptedFirst | lsAcceptedNewer | lsRejectRange | lsRejectSelf | lsRejectStale | prAccepted
  | prRejectRange
  deriving DecidableEq, Repr

/-- A checksum mode (40_checksum.md R131). -/
inductive CkMode where
  | none | evenParity
  deriving DecidableEq, Repr

/-- The byte buffers (R49). -/
inductive Buf where
  | pbufTx | pbufRx | fbufTx | fbufRx | abuf
  deriving DecidableEq, Repr

/-! ## Registers -/

/-- CTRL (R25). -/
structure Ctrl where
  enable : Bool
  seqCheck : Bool
  txMode : Bool
  deriving DecidableEq, Repr

/-- ADDR (R26). -/
structure AddrReg where
  myHw : Byte
  myLogical : Byte
  deriving DecidableEq, Repr

/-- The W1C bits of STATUS (R27, R28): bits 0 and 2-7. -/
structure Flags where
  txDone : Bool
  topoChanged : Bool
  rxError : Bool
  seqMismatch : Bool
  rtcLatch : Bool
  ctcLatch : Bool
  accessErr : Bool
  deriving DecidableEq, Repr

/-- CMD_STATUS (R33). -/
structure CmdStatus where
  code : CmdCode
  op : Byte
  deriving DecidableEq, Repr

/-- TX_RESULT (R34). -/
structure TxResult where
  code : TxCode
  fragsDone : Nat
  nfrag : Nat
  deriving DecidableEq, Repr

/-- ARQ_CFG (R35). -/
structure ArqCfg where
  ackTimeout : Half
  maxRetries : Byte
  deriving DecidableEq, Repr

/-- TTL_CFG (R36). -/
structure TtlCfg where
  lsTtl : Byte
  nbTtl : Byte
  deriving DecidableEq, Repr

/-- RX_INFO bits 21:0 (R37); RX_OFFSET is a view of `S.rx_offset`. -/
structure RxInfo where
  len : Byte
  src : Byte
  pktType : BitVec 4
  lsAccepted : Bool
  bcast : Bool
  deriving DecidableEq, Repr

/-- RX_EVENT's EVENT and UNSTUFFED_LEN (R38); RAW_LEN is a view of `S.fbuf_rx_len` (R48). -/
structure RxEvent where
  event : RxCode
  unstuffedLen : Nat
  deriving DecidableEq, Repr

/-- PKT_STATUS (R39). -/
structure PktStatus where
  vcode : VCode
  pktType : BitVec 4
  action : RecAction
  topoSet : Bool
  delivered : Bool
  deriving DecidableEq, Repr

/-- The four counters (R43). -/
structure Counters where
  rxFrames : Word
  rxDrops : Word
  txFrames : Word
  txRetries : Word
  deriving DecidableEq, Repr

/-! ## Elements of the ARQ engine -/

/-- The sender elements (R45). -/
structure Sender where
  arqState : ArqState
  txOwned : Bool
  allocLen : Nat
  dest : Byte
  sendLen : Nat
  nfrag : Nat
  fragIdx : Nat
  curSeq : Bool
  retries : Byte
  timer : Half
  fragsDone : Nat
  deriving DecidableEq, Repr

/-- The transmit-port elements (R46). -/
structure TxPort where
  dataPending : Bool
  fbufTxLen : Nat
  ackPending : Bool
  abufLen : Nat
  txInflight : TxInflight
  abortPending : Bool
  deriving DecidableEq, Repr

/-- The ACK latch (R47). -/
structure AckLatch where
  latched : Bool
  seq : Bool
  src : Byte
  deriving DecidableEq, Repr

/-- The receiver elements (R48). -/
structure Receiver where
  offset : Nat
  expected : Bool
  ready : Bool
  fbufRxLen : Nat
  deriving DecidableEq, Repr

/-! ## Records -/

/-- A link-state record (R50). Bits of `mask` at or above N_NODES are 0 (Safety.lean's `RangeInv`). -/
structure LsRecord where
  known : Bool
  seq : Byte
  ttl : Byte
  mask : Word
  deriving DecidableEq, Repr

/-- A neighbour record (R52). -/
structure NbRecord where
  phys : Byte
  ttl : Byte
  deriving DecidableEq, Repr

/-- The record every link-state record is at reset and after expiry (R50, R234). -/
def zeroLs : LsRecord := { known := false, seq := 0, ttl := 0, mask := 0 }

/-- The record every neighbour record is at reset (R52). -/
def zeroNb : NbRecord := { phys := 0, ttl := 0 }

/-! ## The agents around the block -/

/-- The state of the agents around the block, and the model's own fields. -/
structure Env where
  /-- The steps of the agents still to come, the next one first (model's own field, log 1). -/
  agenda : List Event
  /-- The number of the next free choice of the environment (model's own field, log 1). -/
  eventNo : Nat
  /-- The frame PHY-RX offers (R55(c)). -/
  rxOffer : Option (List Byte)
  /-- The frame PHY-TX holds (R180, R182). -/
  txHeld : Option (List Byte)
  /-- What the last host read returned (model's own field, log 5). -/
  hostData : Word
  deriving DecidableEq, Repr

/-- The buffers' bytes by their byte offset on the register port (R22, R49): offsets strictly rising and no byte
equal to 0x00, which is what an unlisted byte holds (R49's reset contents). Ops.lean's `memWf` says so. -/
abbrev Memory := List Host.Cell

/-- Everything the spec gives the machine. -/
structure State where
  params : Params
  ctrl : Ctrl
  addr : AddrReg
  flags : Flags
  irqEn : Byte
  arg0 : Word
  arg1 : Word
  result : Word
  cmdStatus : CmdStatus
  txResult : TxResult
  arqCfg : ArqCfg
  ttlCfg : TtlCfg
  rxInfo : RxInfo
  rxEvent : RxEvent
  pktStatus : PktStatus
  mask : Word
  counters : Counters
  tx : Sender
  port : TxPort
  ack : AckLatch
  rx : Receiver
  mem : Memory
  ls : List LsRecord
  nb : List NbRecord
  env : Env
  deriving DecidableEq, Repr

/-- The state after hardware reset of the instance with parameters `p`, with the environment's steps still to come
(R56, R290). Every value is the spec's but those of the model's own fields (log 14). -/
def State.resetOf (p : Params) (agenda : List Event) (eventNo : Nat) : State :=
  { params := p
    ctrl := { enable := false, seqCheck := false, txMode := true }
    addr := { myHw := 0, myLogical := 0 }
    flags := { txDone := false, topoChanged := false, rxError := false, seqMismatch := false, rtcLatch := false,
               ctcLatch := false, accessErr := false }
    irqEn := 0
    arg0 := 0
    arg1 := 0
    result := 0
    cmdStatus := { code := .ok, op := 0 }
    txResult := { code := .none, fragsDone := 0, nfrag := 0 }
    arqCfg := { ackTimeout := 0, maxRetries := 0 }
    ttlCfg := { lsTtl := 30, nbTtl := 30 }
    rxInfo := { len := 0, src := 0, pktType := 0, lsAccepted := false, bcast := false }
    rxEvent := { event := .none, unstuffedLen := 0 }
    pktStatus := { vcode := .none, pktType := 0, action := .none, topoSet := false, delivered := false }
    mask := 0
    counters := { rxFrames := 0, rxDrops := 0, txFrames := 0, txRetries := 0 }
    tx := { arqState := .idle, txOwned := false, allocLen := 0, dest := 0, sendLen := 0, nfrag := 0, fragIdx := 0,
            curSeq := false, retries := 0, timer := 0, fragsDone := 0 }
    port := { dataPending := false, fbufTxLen := 0, ackPending := false, abufLen := 0, txInflight := .none,
              abortPending := false }
    ack := { latched := false, seq := false, src := 0 }
    rx := { offset := 0, expected := false, ready := false, fbufRxLen := 0 }
    mem := []
    ls := List.replicate p.nNodes zeroLs
    nb := List.replicate p.nNodes zeroNb
    env := { agenda := agenda, eventNo := eventNo, rxOffer := none, txHeld := none, hostData := 0 } }

/-- The machine right after hardware reset, with the default parameters of R5 (R290). -/
def State.reset : State := State.resetOf Params.default [] 0

end Sys2Proof.Machine
end

