-- ==== Sys2Proof/Machine/Ops.lean ====
section
/-! DEFINITION. The shared operations: bytes of memory and of the buffers (10_state.md R49, 20_memory.md R70), the record
files (R50, R52), how a command ends (00_scope.md R9) and how a host access error is reported (R263).

SLN-LINK takes no trap (60_exceptions.md R269, R270): an error is reported in CMD_STATUS, RX_EVENT or STATUS and the
block goes on. `complete` (with `finishOk` and `raiseCmdError`) and `raiseAccessErr` are those reports; there is no
entry to a handler and no return. -/

namespace Sys2Proof.Machine

/-! ## Memory -/

/-- What an unlisted byte holds: every buffer byte resets to 0x00 (R49). -/
def memBackground : Byte := 0

/-- The byte at a port offset. -/
def memRead : Memory → Nat → Byte
  | [], _ => memBackground
  | (b, w) :: m, a => if a = b then w else memRead m a

/-- Writing one byte, keeping offsets rising and dropping an entry that would hold the background. -/
def memWrite : Memory → Nat → Byte → Memory
  | [], a, v => if v = memBackground then [] else [(a, v)]
  | (b, w) :: m, a, v =>
    if a < b then (if v = memBackground then (b, w) :: m else (a, v) :: (b, w) :: m)
    else if a = b then (if v = memBackground then m else (a, v) :: m)
    else (b, w) :: memWrite m a v

/-- Every offset of the list is at least `lo`, the offsets rise strictly, and no byte is the background. -/
def memSorted : Nat → Memory → Bool
  | _, [] => true
  | lo, (b, w) :: m => decide (lo ≤ b) && (w != memBackground) && memSorted (b + 1) m

/-- The canonical form of memory: equal memories are equal lists. -/
def memWf (m : Memory) : Bool := memSorted 0 m

/-- Writing a string of bytes from an offset on, first byte first (R9: in textual order). -/
def memWriteBytes : Memory → Nat → List Byte → Memory
  | m, _, [] => m
  | m, a, v :: vs => memWriteBytes (memWrite m a v) (a + 1) vs

/-! ## Buffers -/

/-- The size of a buffer in bytes (R49). -/
def bufSize : Buf → Nat
  | .pbufTx => 128
  | .pbufRx => 128
  | .fbufTx => 64
  | .fbufRx => 64
  | .abuf => 16

/-- Where a buffer's window lies on the register port (R22). -/
def bufBase : Buf → Nat
  | .pbufTx => 0x100
  | .pbufRx => 0x200
  | .fbufTx => 0x300
  | .fbufRx => 0x340
  | .abuf => 0x380

/-- `BUF[i]` (R9). A byte at or beyond the buffer's size does not exist; it reads 0x00 (log 8). -/
def bufRead (m : Memory) (b : Buf) (i : Nat) : Byte :=
  if i < bufSize b then memRead m (bufBase b + i) else memBackground

/-- `BUF[off .. off+n)` (R8). -/
def bufBytes (m : Memory) (b : Buf) (off n : Nat) : List Byte :=
  (List.range n).map fun j => bufRead m b (off + j)

/-- `for i: BUF[off + i] <- w[i]`. The part at or beyond the buffer's size is not written (log 8). -/
def bufWrite (m : Memory) (b : Buf) (off : Nat) (w : List Byte) : Memory :=
  memWriteBytes m (bufBase b + off) (w.take (bufSize b - off))

/-- `for i: BUF[off + i] <- w[i]` on a state. -/
def writeBuf (s : State) (b : Buf) (off : Nat) (w : List Byte) : State :=
  { s with mem := bufWrite s.mem b off w }

/-- The port offset lies in the window of some buffer (R22). -/
def inWindow (a : Nat) : Bool :=
  [Buf.pbufTx, .pbufRx, .fbufTx, .fbufRx, .abuf].any fun b => decide (bufBase b ≤ a) && decide (a < bufBase b + bufSize b)

/-- Memory holds no byte outside the buffers. -/
def memMapped (m : Memory) : Bool := m.all fun c => inWindow c.1

/-! ## Bits of words -/

/-- A field placed at bit `lo` of a register word (R7). -/
def fieldAt {w : Nat} (lo : Nat) (x : BitVec w) : Word := x.setWidth 32 <<< lo

/-- A one-bit field placed at bit `i`. -/
def bitAt (i : Nat) (b : Bool) : Word := fieldAt i (BitVec.ofBool b)

/-- A count placed in a field of `w` bits at bit `lo` (log 11). -/
def countAt (w lo n : Nat) : Word := fieldAt lo (BitVec.ofNat w n)

/-- `v[hi:lo]` as a byte, for `hi = lo + 7` (R7). -/
def byteOf (v : Word) (lo : Nat) : Byte := v.extractLsb' lo 8

/-! ## Records -/

/-- MAX_ADDRESS (R5). -/
def maxAddress (s : State) : Nat := s.params.nNodes - 1

/-- `a <= MAX`. -/
def inRange (s : State) (a : Byte) : Bool := decide (a.toNat ≤ maxAddress s)

/-- `own = R(ADDR).MY_LOGICAL` (R51). -/
def own (s : State) : Byte := s.addr.myLogical

/-- `LS[a]` (log 9). -/
def lsGet (s : State) (a : Byte) : LsRecord := s.ls.getD a.toNat zeroLs

/-- `LS[a] <- r`. -/
def lsSet (s : State) (a : Byte) (r : LsRecord) : State := { s with ls := s.ls.set a.toNat r }

/-- `NB[a]` (log 9). -/
def nbGet (s : State) (a : Byte) : NbRecord := s.nb.getD a.toNat zeroNb

/-- `NB[a] <- r`. -/
def nbSet (s : State) (a : Byte) (r : NbRecord) : State := { s with nb := s.nb.set a.toNat r }

/-- Bit `i` of a connected-address mask (R50). -/
def maskBit (m : Word) (i : Nat) : Bool := m.getLsbD i

/-- `mask[i] <- 1`. -/
def maskSet (m : Word) (i : Nat) : Word := m ||| (1#32 <<< i)

/-- `mask[i] <- 0`. -/
def maskClear (m : Word) (i : Nat) : Word := m &&& ~~~(1#32 <<< i)

/-! ## How a command ends, and access errors -/

/-- The end of a command: CMD_STATUS gets its code and the command's opcode (R33, R90). -/
def complete (i : Instr) (code : CmdCode) (s : State) : Host.Outcome State Fault Refusal :=
  .next { s with cmdStatus := { code := code, op := opcode i } }

/-- `finish OK` (R9), after the writes listed. -/
def finishOk (i : Instr) (s : State) : Host.Outcome State Fault Refusal := complete i .ok s

/-- `raise CmdError(code)` (R9): all other state is as before the command. -/
def raiseCmdError (i : Instr) (code : CmdCode) (s : State) : Host.Outcome State Fault Refusal := complete i code s

/-- `finish OK` of a command that writes RESULT (R32). -/
def finishResult (i : Instr) (v : Word) (s : State) : Host.Outcome State Fault Refusal :=
  finishOk i { s with result := v }

/-- A host access error sets STATUS.ACCESS_ERR (60_exceptions.md R263). -/
def raiseAccessErr (s : State) : State := { s with flags.accessErr := true }

/-- `S.arq_state ∈ {IDLE, DONE}` (42_arq.md). -/
def idleish (s : State) : Bool :=
  match s.tx.arqState with
  | .idle => true
  | .sendingFragment => false
  | .awaitAck => false
  | .done => true

/-- `ack_slot_busy = S.ack_pending or S.tx_inflight = ACK` (R46). -/
def ackSlotBusy (s : State) : Bool := s.port.ackPending || decide (s.port.txInflight = .ack)

end Sys2Proof.Machine
end

