-- ==== Sys2Proof/Machine/Operands.lean ====
section
/-! DEFINITION. Operand assembly (30_encoding.md R92): every operand is a zero-extended field of ARG0 or ARG1, and bits
not listed are ignored. -/

namespace Sys2Proof.Machine

/-- `R(ARG0)[7:0]`: len of TX_ALLOC, dest, off, k, n, phys, seq, a. -/
def arg0Low (s : State) : Byte := byteOf s.arg0 0

/-- `R(ARG0)[15:8]`: len of ARQ_SEND and the checksum commands, prev_hop, logical, b. -/
def arg0High (s : State) : Byte := byteOf s.arg0 8

/-- `R(ARG0)[15:0]`: the elapsed seconds of AGE. -/
def arg0Half (s : State) : Half := s.arg0.extractLsb' 0 16

/-- `R(ARG1)[1:0]`: the checksum mode; none for the values above 1, which are reserved (R133, K12). -/
def arg1Mode (s : State) : Option CkMode :=
  match (s.arg1.extractLsb' 0 2 : BitVec 2).toNat with
  | 0 => some .none
  | 1 => some .evenParity
  | _ => none

/-- `R(ARG1)[8]`: the buffer of a checksum command. -/
def arg1Buf (s : State) : Buf := if s.arg1.getLsbD 8 then .pbufRx else .pbufTx

/-- `R(ARG1)[31:16]`: the expected checksum. -/
def arg1Expected (s : State) : Half := s.arg1.extractLsb' 16 16

end Sys2Proof.Machine
end

