-- ==== Sys2Proof/Machine/Flags.lean ====
section
/-! DEFINITION. The status flags and the coded fields: STATUS (10_state.md R27), write-1-to-clear (R28), the interrupt
output (60_exceptions.md R265) and the numbers of every code (30_encoding.md R120-R122, R34). -/

namespace Sys2Proof.Machine

/-! ## Code points -/

/-- STATUS.ARQ_STATE (R45). -/
def arqStateBits : ArqState → BitVec 2
  | .idle => 0
  | .sendingFragment => 1
  | .awaitAck => 2
  | .done => 3

/-- STATUS.TX_INFLIGHT (R27). -/
def txInflightBits : TxInflight → BitVec 2
  | .none => 0
  | .ack => 1
  | .data => 2
  | .orphan => 3

/-- CMD_STATUS.CODE (R120). -/
def cmdCodeBits : CmdCode → BitVec 4
  | .ok => 0
  | .illegalCmd => 1
  | .busy => 2
  | .disabled => 3
  | .noBuffer => 4
  | .packetTooBig => 5
  | .invalidArg => 6

/-- TX_RESULT.CODE (R34). -/
def txCodeBits : TxCode → BitVec 4
  | .none => 0
  | .transmissionSuccess => 1
  | .nodeUnreachable => 2
  | .aborted => 3

/-- RX_EVENT.EVENT (R121). -/
def rxCodeBits : RxCode → BitVec 8
  | .none => 0
  | .moreFramesExpected => 1
  | .finalFrame => 2
  | .addressMismatch => 3
  | .unstuffError => 4
  | .formatError => 5
  | .checksumError => 6
  | .controlAck => 7
  | .controlRtc => 8
  | .controlCtc => 9
  | .unknownControl => 10
  | .rxBusy => 11
  | .overflow => 12
  | .duplicate => 13

/-- PKT_STATUS.VCODE (R122). -/
def vcodeBits : VCode → BitVec 4
  | .none => 0
  | .valid => 1
  | .tooShort => 2
  | .badMode => 3
  | .checksumFail => 4
  | .badType => 5
  | .lengthMismatch => 6

/-- PKT_STATUS.ACTION (R122). -/
def actionBits : RecAction → BitVec 4
  | .none => 0
  | .lsAcceptedFirst => 1
  | .lsAcceptedNewer => 2
  | .lsRejectRange => 3
  | .lsRejectSelf => 4
  | .lsRejectStale => 5
  | .prAccepted => 6
  | .prRejectRange => 7

/-! ## STATUS -/

/-- The STATUS register as the host reads it (R27). -/
def statusWord (s : State) : Word :=
  bitAt 0 s.flags.txDone ||| bitAt 1 s.rx.ready ||| bitAt 2 s.flags.topoChanged ||| bitAt 3 s.flags.rxError
    ||| bitAt 4 s.flags.seqMismatch ||| bitAt 5 s.flags.rtcLatch ||| bitAt 6 s.flags.ctcLatch
    ||| bitAt 7 s.flags.accessErr ||| bitAt 8 s.tx.txOwned ||| bitAt 9 s.port.ackPending
    ||| bitAt 10 s.port.dataPending ||| bitAt 11 s.port.abortPending ||| fieldAt 12 (arqStateBits s.tx.arqState)
    ||| fieldAt 14 (txInflightBits s.port.txInflight) ||| bitAt 16 s.ack.latched ||| bitAt 17 s.ack.seq
    ||| bitAt 18 s.rx.expected ||| fieldAt 24 s.ack.src

/-- The W1C fields a write of `v` to STATUS clears (R28). -/
def clearFlags (v : Word) (f : Flags) : Flags :=
  { txDone := f.txDone && !v.getLsbD 0
    topoChanged := f.topoChanged && !v.getLsbD 2
    rxError := f.rxError && !v.getLsbD 3
    seqMismatch := f.seqMismatch && !v.getLsbD 4
    rtcLatch := f.rtcLatch && !v.getLsbD 5
    ctcLatch := f.ctcLatch && !v.getLsbD 6
    accessErr := f.accessErr && !v.getLsbD 7 }

/-- A host write of `v` to STATUS (R28): W1C, and the return from DONE to IDLE when TX_DONE is cleared. -/
def writeStatus (v : Word) (s : State) : State :=
  { s with
    flags := clearFlags v s.flags
    tx.arqState := if v.getLsbD 0 = true ∧ s.tx.arqState = .done then .idle else s.tx.arqState }

/-- The interrupt output (R265): the OR of STATUS[i] AND IRQ_EN[i] over i in 0..7. -/
def irq (s : State) : Bool :=
  (List.range 8).any fun i => (statusWord s).getLsbD i && s.irqEn.getLsbD i

/-- `if topo then STATUS.TOPO_CHANGED <- 1` (R231, R232). -/
def raiseTopo (topo : Bool) (s : State) : State :=
  { s with flags.topoChanged := s.flags.topoChanged || topo }

end Sys2Proof.Machine
end

