-- ==== Sys2Proof/Machine/Checksum.lean ====
section
/-! DEFINITION. The checksum engine (40_checksum.md): ParityFold R130, Checksum R131, Verify R132 and the commands CKSUM_GEN
R133 and CKSUM_VERIFY R134. -/

namespace Sys2Proof.Machine

/-- The number of 1 bits of a byte (R8). -/
def popcount (b : Byte) : Nat := (List.range 8).countP fun i => b.getLsbD i

/-- ParityFold (R130): the parity of all the 1 bits of a byte string. -/
def parityFold (d : List Byte) : Nat := (d.map popcount).sum % 2

/-- Checksum (R131). -/
def checksum (mode : CkMode) (d : List Byte) : Half :=
  match mode with
  | .none => 0
  | .evenParity => BitVec.ofNat 16 (parityFold d)

/-- Verify (R132): all 16 bits are compared. -/
def verify (mode : CkMode) (x : Half) (d : List Byte) : Bool :=
  match mode with
  | .none => true
  | .evenParity => decide (x = checksum .evenParity d)

/-- The checksum mode of one bit: frame CONTROL_HIGH bit 4 and CTRL.TX_MODE (R25, R102). -/
def modeOfBit (b : Bool) : CkMode := if b then .evenParity else .none

/-- `CK_HI`, the byte sent first (R10, R131). -/
def ckHi (ck : Half) : Byte := ck.extractLsb' 8 8

/-- `CK_LO`. -/
def ckLo (ck : Half) : Byte := ck.extractLsb' 0 8

/-- The 16-bit value of two checksum bytes, high byte first (R77). -/
def ckOf (hi lo : Byte) : Half := hi ++ lo

/-- CKSUM_GEN (R133). -/
def execCksumGen (s : State) : Host.Outcome State Fault Refusal :=
  match arg1Mode s with
  | none => raiseCmdError .cksumGen .invalidArg s
  | some mode =>
    if (arg0Low s).toNat + (arg0High s).toNat > 128 then raiseCmdError .cksumGen .invalidArg s
    else
      finishResult .cksumGen
        ((checksum mode (bufBytes s.mem (arg1Buf s) (arg0Low s).toNat (arg0High s).toNat)).setWidth 32) s

/-- CKSUM_VERIFY (R134): a failed verification is a result, not an error. -/
def execCksumVerify (s : State) : Host.Outcome State Fault Refusal :=
  match arg1Mode s with
  | none => raiseCmdError .cksumVerify .invalidArg s
  | some mode =>
    if (arg0Low s).toNat + (arg0High s).toNat > 128 then raiseCmdError .cksumVerify .invalidArg s
    else
      finishResult .cksumVerify
        (bitAt 0 (verify mode (arg1Expected s)
          (bufBytes s.mem (arg1Buf s) (arg0Low s).toNat (arg0High s).toNat))) s

end Sys2Proof.Machine
end

