-- ==== Sys2Proof/Machine/Framer.lean ====
section
/-! DEFINITION. The frame codec (41_framer.md): Stuff R140, Unstuff R142, BuildFrame R146, ParseFrame R147 and the commands
STUFF R150 and UNSTUFF R151. -/

namespace Sys2Proof.Machine

/-- One interior byte on the wire: a FLAG or ESC byte gets an ESC byte before it and is sent unchanged (R140). -/
def stuffByte (p : Params) (b : Byte) : List Byte :=
  if b = p.flagByte ∨ b = p.escByte then [p.escByte, b] else [b]

/-- Stuff (R140). -/
def stuffFrame (p : Params) (x : List Byte) : List Byte :=
  [p.flagByte] ++ x.flatMap (stuffByte p) ++ [p.flagByte]

/-- The scanning loop of Unstuff (R142) from index 1 on: the bytes collected up to the first unescaped FLAG, and the
bytes after that FLAG; none when there is no such FLAG. An ESC before FLAG or ESC is collapsed with it; any other ESC
is kept as data (D5). -/
def unstuffScan (p : Params) : List Byte → Option (List Byte × List Byte)
  | [] => none
  | [b] => if b = p.flagByte then some ([], []) else none
  | b :: c :: rest =>
    if b = p.flagByte then some ([], c :: rest)
    else if b = p.escByte ∧ (c = p.flagByte ∨ c = p.escByte) then
      (unstuffScan p rest).map fun (out, after) => (c :: out, after)
    else (unstuffScan p (c :: rest)).map fun (out, after) => (b :: out, after)

/-- Unstuff of the first `n` bytes of `r` (R142): the interior, or none for a failure. It fails when the leading byte is
not FLAG, when no unescaped FLAG follows, when bytes follow that FLAG and when the interior is empty (R143). -/
def unstuffFrame (p : Params) (r : List Byte) (n : Nat) : Option (List Byte) :=
  match r.take n with
  | [] => none
  | b :: rest =>
    if b = p.flagByte then
      match unstuffScan p rest with
      | some (out, []) => if out = [] then none else some out
      | some (_, _ :: _) => none
      | none => none
    else none

/-- CONTROL_HIGH (R102): CLASS bit 0, SEQ bit 2, FINAL bit 3, CKMODE bit 4; the reserved bits are sent 0. -/
def controlHigh (cls sq fin ck : Bool) : Byte :=
  (bitAt 0 cls ||| bitAt 2 sq ||| bitAt 3 fin ||| bitAt 4 ck).setWidth 8

/-- The interior BuildFrame makes, before stuffing (R146): the five header bytes, the data, and the checksum under the
frame's own mode bit. -/
def frameInterior (s : State) (cl ch d : Byte) (data : List Byte) : List Byte :=
  let body := [cl, ch, d, s.addr.myHw, BitVec.ofNat 8 data.length] ++ data
  let ck := checksum (modeOfBit (ch.getLsbD 4)) body
  body ++ [ckHi ck, ckLo ck]

/-- BuildFrame (R146). -/
def buildFrame (s : State) (cl ch d : Byte) (data : List Byte) : List Byte :=
  stuffFrame s.params (frameInterior s cl ch d data)

/-! ParseFrame (R147): the fields of an unstuffed interior `x`, meaningful when `formatOk x`. -/

/-- `CL`. -/
def frameCl (x : List Byte) : Byte := x.getD 0 0
/-- `CH`. -/
def frameCh (x : List Byte) : Byte := x.getD 1 0
/-- `DEST`. -/
def frameDest (x : List Byte) : Byte := x.getD 2 0
/-- `SRC`. -/
def frameSrc (x : List Byte) : Byte := x.getD 3 0
/-- `LENGTH`. -/
def frameLength (x : List Byte) : Nat := (x.getD 4 0).toNat
/-- `DATA`. -/
def frameData (x : List Byte) : List Byte := (x.drop 5).take (frameLength x)
/-- `CK`: the last two bytes, high byte first. -/
def frameCk (x : List Byte) : Half := ckOf (x.getD (x.length - 2) 0) (x.getD (x.length - 1) 0)

/-- The format check of R147 and R191: `m ≥ 7`, `m = 7 + LENGTH` and `LENGTH ≤ 23`. -/
def formatOk (x : List Byte) : Bool :=
  decide (7 ≤ x.length) && decide (x.length = 7 + frameLength x) && decide (frameLength x ≤ maxFrag)

/-- STUFF (R150). -/
def execStuff (s : State) : Host.Outcome State Fault Refusal :=
  let k := (arg0Low s).toNat
  if idleish s = false then raiseCmdError .stuff .busy s
  else if s.tx.txOwned = false then raiseCmdError .stuff .noBuffer s
  else if k < 1 ∨ k > 31 then raiseCmdError .stuff .invalidArg s
  else
    let w := stuffFrame s.params (bufBytes s.mem .pbufTx 0 k)
    finishResult .stuff (BitVec.ofNat 32 w.length) (writeBuf s .fbufTx 0 w)

/-- UNSTUFF (R151): a failed unstuff is a result of 0, and FBUF_TX is then unchanged. -/
def execUnstuff (s : State) : Host.Outcome State Fault Refusal :=
  let n := (arg0Low s).toNat
  if idleish s = false then raiseCmdError .unstuff .busy s
  else if s.tx.txOwned = false then raiseCmdError .unstuff .noBuffer s
  else if n < 1 ∨ n > 64 then raiseCmdError .unstuff .invalidArg s
  else
    match unstuffFrame s.params (bufBytes s.mem .pbufTx 0 n) n with
    | some x => finishResult .unstuff (BitVec.ofNat 32 x.length) (writeBuf s .fbufTx 0 x)
    | none => finishResult .unstuff 0 s

end Sys2Proof.Machine
end

