-- ==== Sys2Proof/Machine/Arq.lean ====
section
/-! DEFINITION. The ARQ engine's sender (42_arq.md): the packet buffer commands, ARQ_SEND and ARQ_ABORT, the sender's
steps R176-R178, the transmit port R180 and R181, and the timeout R185. RX_RELEASE R168 stands here too. -/

namespace Sys2Proof.Machine

/-! ## Sender operations -/

/-- `ceil(len / 23)` (R163). -/
def fragCount (len : Nat) : Nat := (len + (maxFrag - 1)) / maxFrag

/-- The number of data bytes of fragment `k` of a send of `len` bytes (R164, R176). -/
def fragLen (len k : Nat) : Nat := min maxFrag (len - maxFrag * k)

/-- The CONTROL_HIGH of the current fragment (R106, R176). -/
def dataControlHigh (s : State) : Byte :=
  controlHigh true s.tx.curSeq (decide (s.tx.fragIdx + 1 = s.tx.nfrag)) s.ctrl.txMode

/-- The wire form of the current fragment's frame (R106, R176). -/
def dataFrame (s : State) : List Byte :=
  buildFrame s 0x00 (dataControlHigh s) s.tx.dest
    (bufBytes s.mem .pbufTx (maxFrag * s.tx.fragIdx) (fragLen s.tx.sendLen s.tx.fragIdx))

/-- BuildFragment (R176). -/
def buildFragment (s : State) : State :=
  { writeBuf s .fbufTx 0 (dataFrame s) with
    port := { s.port with fbufTxLen := (dataFrame s).length, dataPending := true }
    ack := { s.ack with latched := false } }

/-- EndSend (R178). -/
def endSend (code : TxCode) (s : State) : State :=
  { s with
    txResult := { code := code, fragsDone := s.tx.fragsDone, nfrag := s.tx.nfrag }
    flags.txDone := true
    port.abortPending := false
    tx.arqState := .done }

/-- The advance of a matching ACK (R177): the last fragment ends the send, any other starts the next one. -/
def advanceSend (s : State) : State :=
  let s := { s with tx.fragsDone := s.tx.fragsDone + 1 }
  if s.tx.fragIdx + 1 = s.tx.nfrag then endSend .transmissionSuccess s
  else
    let s := { s with tx := { s.tx with fragIdx := s.tx.fragIdx + 1, curSeq := !s.tx.curSeq, retries := 0, timer := 0 } }
    let s := buildFragment s
    { s with tx.arqState := .sendingFragment }

/-- The latched ACK is the awaited one (R177, D16). -/
def ackMatches (s : State) : Bool := decide (s.ack.src = s.tx.dest) && decide (s.ack.seq = s.tx.curSeq)

/-- ArqCheckAck (R177): in AWAIT_ACK a latched ACK is consumed, and advances the send when it matches. -/
def arqCheckAck (s : State) : State :=
  if s.tx.arqState = .awaitAck ∧ s.ack.latched = true then
    if ackMatches s then advanceSend { s with ack.latched := false } else { s with ack.latched := false }
  else s

/-- The body of ARQ_ABORT (R166), shared with a write that clears ENABLE (R296). -/
def abortSend (s : State) : State :=
  match s.tx.arqState with
  | .idle => s
  | .done => s
  | .awaitAck => endSend .aborted s
  | .sendingFragment =>
    if s.port.dataPending then endSend .aborted { s with port.dataPending := false }
    else { s with port.abortPending := true }

/-! ## Autonomous steps -/

/-- When TX issue may run (R180). -/
def txIssueEnabled (s : State) : Bool :=
  s.ctrl.enable && decide (s.port.txInflight = .none) && (s.port.ackPending || s.port.dataPending)

/-- TX issue (R180): a waiting ACK goes before a waiting data frame. PHY-TX takes a copy of the bytes. When the rule is
not enabled nothing changes (log 2). -/
def txIssue (s : State) : State :=
  if txIssueEnabled s then
    if s.port.ackPending then
      { s with
        env.txHeld := some (bufBytes s.mem .abuf 0 s.port.abufLen)
        port := { s.port with ackPending := false, txInflight := .ack }
        counters.txFrames := s.counters.txFrames + 1 }
    else
      { s with
        env.txHeld := some (bufBytes s.mem .fbufTx 0 s.port.fbufTxLen)
        port := { s.port with dataPending := false, txInflight := .data }
        counters.txFrames := s.counters.txFrames + 1 }
  else s

/-- What the completion of a data frame does (R181). -/
def dataCompletion (ok : Bool) (s : State) : State :=
  if s.port.abortPending then endSend .aborted s
  else if ok = false then endSend .nodeUnreachable s
  else if s.tx.dest = bcastAddr then endSend .transmissionSuccess { s with tx.fragsDone := 1 }
  else arqCheckAck { s with tx := { s.tx with arqState := .awaitAck, timer := 0 } }

/-- PHY-TX completion with success bit `ok` (R181). With no frame in flight nothing changes (log 2). -/
def txDone (ok : Bool) (s : State) : State :=
  match s.port.txInflight with
  | .none => s
  | .ack => { s with port.txInflight := .none, env.txHeld := none }
  | .orphan => { s with port.txInflight := .none, env.txHeld := none }
  | .data => dataCompletion ok { s with port.txInflight := .none, env.txHeld := none }

/-- The 16-bit saturating increment of the ACK timer (R45, R185). -/
def tickTimer (t : Half) : Half := if t = 0xFFFF then t else t + 1

/-- MS_TICK (R185). -/
def msTick (s : State) : State :=
  if s.tx.arqState = .awaitAck ∧ s.arqCfg.ackTimeout ≠ 0 then
    let s := { s with tx.timer := tickTimer s.tx.timer }
    if s.arqCfg.ackTimeout ≤ s.tx.timer then
      if s.tx.retries < s.arqCfg.maxRetries then
        let s := { s with
          tx := { s.tx with retries := s.tx.retries + 1, timer := 0 }
          counters.txRetries := s.counters.txRetries + 1 }
        let s := buildFragment s
        { s with tx.arqState := .sendingFragment }
      else endSend .nodeUnreachable s
    else s
  else s

/-! ## Commands -/

/-- TX_ALLOC (R160). -/
def execTxAlloc (s : State) : Host.Outcome State Fault Refusal :=
  let len := (arg0Low s).toNat
  if idleish s = false then raiseCmdError .txAlloc .busy s
  else if len = 0 then raiseCmdError .txAlloc .invalidArg s
  else if len > 128 then raiseCmdError .txAlloc .packetTooBig s
  else finishOk .txAlloc { s with tx := { s.tx with txOwned := true, allocLen := len } }

/-- TX_DISCARD (R161). -/
def execTxDiscard (s : State) : Host.Outcome State Fault Refusal :=
  if s.tx.txOwned = false then raiseCmdError .txDiscard .noBuffer s
  else finishOk .txDiscard { s with tx := { s.tx with txOwned := false, allocLen := 0 } }

/-- The checks of ARQ_SEND, in order (R162): the code of the first that fails. -/
def arqSendCheck (s : State) : Option CmdCode :=
  let dest := arg0Low s
  let len := (arg0High s).toNat
  if s.ctrl.enable = false then some .disabled
  else if idleish s = false then some .busy
  else if s.tx.txOwned = false then some .noBuffer
  else if len > 128 ∨ (dest = bcastAddr ∧ len > 23) then some .packetTooBig
  else if len = 0 ∨ len > s.tx.allocLen then some .invalidArg
  else none

/-- The state in which an accepted ARQ_SEND builds its first fragment (R163, up to BuildFragment). -/
def startSend (s : State) : State :=
  let len := (arg0High s).toNat
  { s with
    tx := { s.tx with
      txOwned := false, dest := arg0Low s, sendLen := len, nfrag := fragCount len, fragIdx := 0, curSeq := false,
      retries := 0, timer := 0, fragsDone := 0 }
    flags.txDone := false
    txResult := { code := .none, fragsDone := 0, nfrag := 0 }
    port.abortPending := false }

/-- ARQ_SEND (R162, R163): it starts the send, which ends later through R178. -/
def execArqSend (s : State) : Host.Outcome State Fault Refusal :=
  match arqSendCheck s with
  | some code => raiseCmdError .arqSend code s
  | none =>
    let s := buildFragment (startSend s)
    finishOk .arqSend { s with tx.arqState := .sendingFragment }

/-- ARQ_ABORT (R166): it never fails. -/
def execArqAbort (s : State) : Host.Outcome State Fault Refusal := finishOk .arqAbort (abortSend s)

/-- RX_RELEASE (R168): it hands PBUF_RX back, or flushes a partial reassembly. -/
def execRxRelease (s : State) : Host.Outcome State Fault Refusal :=
  if s.rx.ready then finishOk .rxRelease { s with rx.ready := false }
  else finishOk .rxRelease { s with rx := { s.rx with offset := 0, expected := false } }

end Sys2Proof.Machine
end

