-- ==== Sys2Proof/Machine/LinkState.lean ====
section
/-! DEFINITION. The packet parser, the link-state and neighbour records and their ageing (43_linkstate.md), with the commands
PARSE_PACKET, NOTIFY_PING_RESPONSE, AGE, SET_OWN_SEQ, ARE_NODES_LINKED, IS_DEVICE_ONLINE, READ_LS_RECORD and
READ_NB_RECORD. -/

namespace Sys2Proof.Machine

/-! ## Packet fields (30_encoding.md R111-R116) -/

/-- `p[i]`. -/
def pktByte (p : List Byte) (i : Nat) : Byte := p.getD i 0

/-- TYPE: `p[1][3:0]` (R111). -/
def pktType (p : List Byte) : BitVec 4 := (pktByte p 1).extractLsb' 0 4

/-- CKMODE: `p[1][5:4]`; none for the reserved values 2 and 3 (R111). -/
def pktMode (p : List Byte) : Option CkMode :=
  match ((pktByte p 1).extractLsb' 4 2 : BitVec 2).toNat with
  | 0 => some .none
  | 1 => some .evenParity
  | _ => none

/-- The trailing checksum, high byte first (R111). -/
def pktCk (p : List Byte) : Half := ckOf (pktByte p (p.length - 2)) (pktByte p (p.length - 1))

/-- The packet types (R112). -/
inductive PktType where
  | data | linkState | pingRequest | pingResponse
  deriving DecidableEq, Repr

/-- The type a TYPE code stands for; none for 0 and 5-15 (R112). -/
def typeOfCode (t : BitVec 4) : Option PktType :=
  match t.toNat with
  | 1 => some .data
  | 2 => some .linkState
  | 3 => some .pingRequest
  | 4 => some .pingResponse
  | _ => none

/-- The least length at which `expected_len` can be read (R118). -/
def minLen : PktType → Nat
  | .data => 5
  | .linkState => 5
  | .pingRequest => 4
  | .pingResponse => 4

/-- `expected_len(p)` for a packet of the given type (R118). -/
def expectedLen (p : List Byte) : PktType → Nat
  | .data => 7 + (pktByte p 4).toNat
  | .linkState => 7 + (pktByte p 4).toNat
  | .pingRequest => 4
  | .pingResponse => 5

/-- The list of a LINK_STATE packet: `p[5 .. 5 + p[4])` (R114). -/
def lsList (p : List Byte) : List Byte := (p.drop 5).take (pktByte p 4).toNat

/-! ## Validation (R211) -/

/-- Validate (R211): the first check that fails, or VALID. -/
def validate (p : List Byte) : VCode :=
  if p.length < 4 then .tooShort
  else match pktMode p with
    | none => .badMode
    | some mode =>
      if verify mode (pktCk p) (p.take (p.length - 2)) = false then .checksumFail
      else match typeOfCode (pktType p) with
        | none => .badType
        | some t =>
          if p.length < minLen t then .lengthMismatch
          else if p.length ≠ expectedLen p t then .lengthMismatch
          else .valid

/-! ## Record updates -/

/-- What a record update reports: accepted, the action code, and whether TOPO_CHANGED was raised. -/
structure NotifyOut where
  acc : Bool
  action : RecAction
  topo : Bool
  deriving DecidableEq, Repr

/-- The mask of a node list (R231): an entry above MAX is ignored, a repeated one sets the same bit. -/
def listMask (s : State) (list : List Byte) : Word :=
  list.foldl (fun m e => if inRange s e then maskSet m e.toNat else m) 0

/-- The forward difference is in [1, 128] (R230, R240). -/
def seqNewer (old new : Byte) : Bool := decide (1 ≤ (new - old).toNat) && decide ((new - old).toNat ≤ 128)

/-- NotifyLinkState, acceptance (R231). -/
def acceptLinkState (src sq : Byte) (list : List Byte) (action : RecAction) (s : State) : NotifyOut × State :=
  let newmask := listMask s list
  let topo := decide (newmask ≠ (lsGet s src).mask)
  ({ acc := true, action := action, topo := topo },
   raiseTopo topo (lsSet s src { known := true, seq := sq, ttl := s.ttlCfg.lsTtl, mask := newmask }))

/-- NotifyLinkState (R230): the decision. A rejection changes no state. -/
def notifyLinkState (src sq : Byte) (list : List Byte) (s : State) : NotifyOut × State :=
  if inRange s src = false then ({ acc := false, action := .lsRejectRange, topo := false }, s)
  else if src = own s then ({ acc := false, action := .lsRejectSelf, topo := false }, s)
  else if (lsGet s src).known = false then acceptLinkState src sq list .lsAcceptedFirst s
  else if seqNewer (lsGet s src).seq sq then acceptLinkState src sq list .lsAcceptedNewer s
  else ({ acc := false, action := .lsRejectStale, topo := false }, s)

/-- `LS[own].mask <- m`. -/
def setOwnMask (m : Word) (s : State) : State := lsSet s (own s) { lsGet s (own s) with mask := m }

/-- NotifyPingResponse (R232). -/
def notifyPingResponse (phys l : Byte) (s : State) : NotifyOut × State :=
  if inRange s l = false then ({ acc := false, action := .prRejectRange, topo := false }, s)
  else
    let topo := !maskBit (lsGet s (own s)).mask l.toNat
    let s := nbSet s l { phys := phys, ttl := s.ttlCfg.nbTtl }
    let s := setOwnMask (maskSet (lsGet s (own s)).mask l.toNat) s
    ({ acc := true, action := .prAccepted, topo := topo }, raiseTopo topo s)

/-! ## Dispatch, parser and delivery -/

/-- What the parser reports (R210). -/
structure ParseOut where
  vcode : VCode
  action : RecAction
  topo : Bool
  deliverable : Bool
  lsAcc : Bool
  deriving DecidableEq, Repr

/-- Dispatch of a valid packet (R212). -/
def dispatchPacket (p : List Byte) (ph : Byte) (s : State) : ParseOut × State :=
  match typeOfCode (pktType p) with
  | some .linkState =>
    let (o, s) := notifyLinkState (pktByte p 2) (pktByte p 3) (lsList p) s
    ({ vcode := .valid, action := o.action, topo := o.topo, deliverable := o.acc, lsAcc := o.acc }, s)
  | some .pingResponse =>
    let (o, s) := notifyPingResponse ph (pktByte p 2) s
    ({ vcode := .valid, action := o.action, topo := o.topo, deliverable := false, lsAcc := false }, s)
  | _ => ({ vcode := .valid, action := .none, topo := false, deliverable := true, lsAcc := false }, s)

/-- The validation and the record updates of ParsePacket (R210), before PKT_STATUS is written. -/
def parseRecords (p : List Byte) (ph : Byte) (s : State) : ParseOut × State :=
  if validate p = .valid then dispatchPacket p ph s
  else ({ vcode := validate p, action := .none, topo := false, deliverable := false, lsAcc := false }, s)

/-- ParsePacket (R210) on the bytes `p`, with previous hop `ph`. -/
def parsePacket (p : List Byte) (ph : Byte) (s : State) : ParseOut × State :=
  let (o, s) := parseRecords p ph s
  (o, { s with pktStatus :=
          { vcode := o.vcode, pktType := if 2 ≤ p.length then pktType p else 0, action := o.action,
            topoSet := o.topo, delivered := false } })

/-- DeliverPacket (R224): the parser on PBUF_RX[0..len), then delivery to the host. -/
def deliverPacket (len : Nat) (src : Byte) (bc : Bool) (s : State) : State :=
  let (o, s) := parsePacket (bufBytes s.mem .pbufRx 0 len) src s
  if o.vcode = .valid ∧ o.deliverable = true then
    { s with
      rx.ready := true
      rxInfo := { len := BitVec.ofNat 8 len, src := src, pktType := (bufRead s.mem .pbufRx 1).extractLsb' 0 4,
                  lsAccepted := o.lsAcc, bcast := bc }
      pktStatus.delivered := true }
  else if o.vcode ≠ .valid then { s with flags.rxError := true }
  else s

/-! ## Commands on packets and records -/

/-- PARSE_PACKET (R226): the parser on PBUF_TX[0..n), without delivery. -/
def execParsePacket (s : State) : Host.Outcome State Fault Refusal :=
  let n := (arg0Low s).toNat
  if s.tx.txOwned = false then raiseCmdError .parsePacket .noBuffer s
  else if n > 128 then raiseCmdError .parsePacket .invalidArg s
  else
    let (o, s) := parsePacket (bufBytes s.mem .pbufTx 0 n) (arg0High s) s
    finishResult .parsePacket
      (bitAt 0 (decide (o.vcode = .valid)) ||| bitAt 1 o.lsAcc
        ||| bitAt 2 (decide (o.vcode = .valid) && o.deliverable)) s

/-- NOTIFY_PING_RESPONSE (R233): an out-of-range address is a rejection, not an error. -/
def execNotifyPingResponse (s : State) : Host.Outcome State Fault Refusal :=
  let (o, s) := notifyPingResponse (arg0Low s) (arg0High s) s
  finishResult .notifyPingResponse (bitAt 0 o.acc ||| bitAt 1 o.topo) s

/-- `sat_sub(ttl, e)` (R8, R234). -/
def satSub (ttl : Byte) (e : Half) : Byte := if e.toNat ≤ ttl.toNat then BitVec.ofNat 8 (ttl.toNat - e.toNat) else 0

/-- One turn of AGE's first loop (R234): the link-state record of `a`, with the count of expiries. -/
def ageLs (e : Half) (acc : State × Nat) (a : Nat) : State × Nat :=
  let (s, n) := acc
  let r := lsGet s (BitVec.ofNat 8 a)
  if BitVec.ofNat 8 a ≠ own s ∧ r.ttl ≠ 0 then
    let ttl := satSub r.ttl e
    if ttl = 0 then (raiseTopo true (lsSet s (BitVec.ofNat 8 a) zeroLs), n + 1)
    else (lsSet s (BitVec.ofNat 8 a) { r with ttl := ttl }, n)
  else (s, n)

/-- One turn of AGE's second loop (R234): the neighbour record of `a`. -/
def ageNb (e : Half) (acc : State × Nat) (a : Nat) : State × Nat :=
  let (s, n) := acc
  let r := nbGet s (BitVec.ofNat 8 a)
  if r.ttl ≠ 0 then
    let ttl := satSub r.ttl e
    if ttl = 0 then
      let s := nbSet s (BitVec.ofNat 8 a) { phys := 0, ttl := 0 }
      (raiseTopo true (setOwnMask (maskClear (lsGet s (own s)).mask a) s), n + 1)
    else (nbSet s (BitVec.ofNat 8 a) { r with ttl := ttl }, n)
  else (s, n)

/-- The addresses 0..MAX, in order. -/
def addresses (s : State) : List Nat := List.range (maxAddress s + 1)

/-- The first loop of AGE (R234), with the number of link-state expiries. -/
def ageLsAll (e : Half) (s : State) : State × Nat := (addresses s).foldl (ageLs e) (s, 0)

/-- The second loop of AGE (R234), with the number of neighbour expiries. -/
def ageNbAll (e : Half) (s : State) : State × Nat := (addresses s).foldl (ageNb e) (s, 0)

/-- AGE (R234). -/
def execAge (s : State) : Host.Outcome State Fault Refusal :=
  let e := arg0Half s
  let (s, nls) := ageLsAll e s
  let (s, nnb) := ageNbAll e s
  finishResult .age (countAt 8 0 nls ||| countAt 8 8 nnb) s

/-- SET_OWN_SEQ (R235). -/
def execSetOwnSeq (s : State) : Host.Outcome State Fault Refusal :=
  finishOk .setOwnSeq (lsSet s (own s) { lsGet s (own s) with seq := arg0Low s })

/-- `a` is linked to `b` (R238): directed, and the own record never expires. -/
def nodesLinked (s : State) (a b : Byte) : Bool :=
  if inRange s a = false ∨ inRange s b = false then false
  else if a ≠ own s ∧ (lsGet s a).ttl = 0 then false
  else maskBit (lsGet s a).mask b.toNat

/-- ARE_NODES_LINKED (R238). -/
def execAreNodesLinked (s : State) : Host.Outcome State Fault Refusal :=
  finishResult .areNodesLinked (bitAt 0 (nodesLinked s (arg0Low s) (arg0High s))) s

/-- `a` is online (R239): the own address is tested first. -/
def deviceOnline (s : State) (a : Byte) : Bool :=
  if a = own s then true
  else if inRange s a = false then false
  else decide ((lsGet s a).ttl ≠ 0)

/-- IS_DEVICE_ONLINE (R239). -/
def execIsDeviceOnline (s : State) : Host.Outcome State Fault Refusal :=
  finishResult .isDeviceOnline (bitAt 0 (deviceOnline s (arg0Low s))) s

/-- READ_LS_RECORD (R236): RESULT and MASK. -/
def execReadLsRecord (s : State) : Host.Outcome State Fault Refusal :=
  let a := arg0Low s
  if inRange s a = false then raiseCmdError .readLsRecord .invalidArg s
  else
    let r := lsGet s a
    finishResult .readLsRecord
      (fieldAt 0 r.seq ||| fieldAt 8 r.ttl ||| bitAt 16 r.known ||| bitAt 17 (decide (a = own s)))
      { s with mask := r.mask }

/-- READ_NB_RECORD (R237). -/
def execReadNbRecord (s : State) : Host.Outcome State Fault Refusal :=
  let a := arg0Low s
  if inRange s a = false then raiseCmdError .readNbRecord .invalidArg s
  else finishResult .readNbRecord (fieldAt 0 (nbGet s a).phys ||| fieldAt 8 (nbGet s a).ttl) s

end Sys2Proof.Machine
end

