-- ==== Sys2Proof/Machine/Receive.lean ====
section
/-! DEFINITION. The receive path (42_arq.md R190-R199): a frame offered by PHY-RX is taken, unstuffed, checked, classified,
acknowledged and reassembled in one atomic step. -/

namespace Sys2Proof.Machine

/-- drop(ev) (R198): the event, the drop count, and RX_ERROR but for ADDRESS_MISMATCH. -/
def dropFrame (ev : RxCode) (s : State) : State :=
  { s with
    rxEvent.event := ev
    counters.rxDrops := s.counters.rxDrops + 1
    flags.rxError := s.flags.rxError || decide (ev ≠ .addressMismatch) }

/-- The wire form of the ACK of sequence bit `sq` to `d` (R110, R199). -/
def ackFrame (s : State) (d : Byte) (sq : Bool) : List Byte :=
  buildFrame s 0x01 (controlHigh false sq false s.ctrl.txMode) d []

/-- QueueAck (R199). -/
def queueAck (d : Byte) (sq : Bool) (s : State) : State :=
  { writeBuf s .abuf 0 (ackFrame s d sq) with
    port := { s.port with abufLen := (ackFrame s d sq).length, ackPending := true } }

/-- `if not bc then QueueAck(src, s)` (R196, R197): a broadcast is never acknowledged. -/
def ackUnlessBcast (bc : Bool) (d : Byte) (sq : Bool) (s : State) : State := if bc then s else queueAck d sq s

/-- SEQ of a received frame (R102). -/
def rxSeq (x : List Byte) : Bool := (frameCh x).getLsbD 2

/-- FINAL of a received frame (R102). -/
def rxFinal (x : List Byte) : Bool := (frameCh x).getLsbD 3

/-- The received frame is a broadcast. -/
def rxBcast (x : List Byte) : Bool := decide (frameDest x = bcastAddr)

/-- Accept and reassemble (R197). -/
def rxAccept (x : List Byte) (s : State) : State :=
  let s := writeBuf s .pbufRx s.rx.offset (frameData x)
  let s := { s with rx.offset := s.rx.offset + frameLength x }
  let s := ackUnlessBcast (rxBcast x) (frameSrc x) (rxSeq x) s
  let s := { s with rx.expected := !s.rx.expected }
  if rxFinal x then
    let len := s.rx.offset
    let s := { s with rx := { s.rx with offset := 0, expected := false }, rxEvent.event := .finalFrame }
    deliverPacket len (frameSrc x) (rxBcast x) s
  else { s with rxEvent.event := .moreFramesExpected }

/-- The capacity check (R196), then R197. -/
def rxCapacity (x : List Byte) (s : State) : State :=
  if s.rx.offset + frameLength x > 128 then
    dropFrame .overflow { s with rx := { s.rx with offset := 0, expected := false } }
  else rxAccept x s

/-- The sequence check (R196): a mismatch is flagged, and with SEQ_CHECK = 1 the frame is a duplicate, acknowledged again
and discarded without being a drop (D59). -/
def rxSequence (x : List Byte) (s : State) : State :=
  if rxSeq x ≠ s.rx.expected then
    let s := { s with flags.seqMismatch := true }
    if s.ctrl.seqCheck then
      let s := ackUnlessBcast (rxBcast x) (frameSrc x) (rxSeq x) s
      { s with rxEvent.event := .duplicate }
    else rxCapacity x s
  else rxCapacity x s

/-- A data frame (R195): dropped while a delivered packet holds PBUF_RX. -/
def rxData (x : List Byte) (s : State) : State :=
  if s.rx.ready then dropFrame .rxBusy s else rxSequence x s

/-- A received ACK (R193). -/
def rxAck (x : List Byte) (s : State) : State :=
  arqCheckAck
    { s with
      ack := { latched := true, seq := rxSeq x, src := frameSrc x }
      rxEvent.event := .controlAck }

/-- A control frame, by its CONTROL_LOW (R101, R193, R194). -/
def rxControl (x : List Byte) (s : State) : State :=
  if frameCl x = 0x01 then rxAck x s
  else if frameCl x = 0x02 then { s with flags.rtcLatch := true, rxEvent.event := .controlRtc }
  else if frameCl x = 0x03 then { s with flags.ctcLatch := true, rxEvent.event := .controlCtc }
  else dropFrame .unknownControl s

/-- The class dispatch (30_encoding.md R107). -/
def rxClass (x : List Byte) (s : State) : State :=
  if (frameCh x).getLsbD 0 then rxData x s else rxControl x s

/-- The received checksum verifies under the frame's own mode bit (R192). -/
def rxVerified (x : List Byte) : Bool :=
  verify (modeOfBit ((frameCh x).getLsbD 4)) (frameCk x) (x.take (x.length - 2))

/-- The frame is for this node or broadcast (R192). -/
def rxForMe (x : List Byte) (s : State) : Bool :=
  decide (frameDest x = s.addr.myHw) || decide (frameDest x = bcastAddr)

/-- The format, address and checksum checks, in that order (R191, R192), then the class dispatch. -/
def rxChecks (x : List Byte) (s : State) : State :=
  if formatOk x = false then dropFrame .formatError s
  else if rxForMe x s = false then dropFrame .addressMismatch s
  else if rxVerified x = false then dropFrame .checksumError s
  else rxClass x s

/-- The writes at the start of R190: the raw frame, its length, the frame count and the event register. -/
def rxLatch (f : List Byte) (s : State) : State :=
  { writeBuf s .fbufRx 0 f with
    rx := { s.rx with fbufRxLen := f.length }
    counters.rxFrames := s.counters.rxFrames + 1
    rxEvent := { event := .none, unstuffedLen := 0 } }

/-- R190 on the frame `f`: latch, unstuff, and the checks. -/
def rxFrame (f : List Byte) (s : State) : State :=
  let s := rxLatch f s
  match unstuffFrame s.params (bufBytes s.mem .fbufRx 0 f.length) f.length with
  | none => dropFrame .unstuffError s
  | some x => rxChecks x { s with rxEvent.unstuffedLen := x.length }

/-- When the offered frame may be taken (R190). -/
def rxTakeEnabled (s : State) : Bool :=
  s.ctrl.enable && !ackSlotBusy s && (match s.env.rxOffer with
    | some f => frameOk f
    | none => false)

/-- RX frame take (R190). The frame is then no longer offered. When the rule is not enabled nothing changes: the frame
stays offered (log 2). -/
def rxTake (s : State) : State :=
  if rxTakeEnabled s then
    match s.env.rxOffer with
    | some f => rxFrame f { s with env.rxOffer := none }
    | none => s
  else s

/-- PHY-RX comes to offer a frame (R4, R55(c)): at most `RX_MAX` bytes of it (D45), and the empty string is no offer
(log 3). -/
def offerFrame (f : List Byte) (s : State) : State :=
  { s with env.rxOffer := if f = [] then none else some (f.take rxMax) }

end Sys2Proof.Machine
end

