-- ==== Sys2Proof/Machine/System.lean ====
section
/-! DEFINITION. The system commands (44_system.md): NOP R250, SOFT_RESET R251, the illegal opcodes R252, and hardware reset
(10_state.md R56). -/

namespace Sys2Proof.Machine

/-- NOP (R250). -/
def execNop (s : State) : Host.Outcome State Fault Refusal := finishOk .nop s

/-- What SOFT_RESET does to the port's in-flight mark (R251): a frame PHY-TX holds becomes an orphan. -/
def orphaned : TxInflight → TxInflight
  | .none => .none
  | .ack => .orphan
  | .data => .orphan
  | .orphan => .orphan

/-- The state after SOFT_RESET (R251): reset but for the configuration registers, the parameters, the in-flight mark and
the agents around the block. -/
def softReset (s : State) : State :=
  let r := State.resetOf s.params s.env.agenda s.env.eventNo
  { r with
    ctrl := s.ctrl
    addr := s.addr
    irqEn := s.irqEn
    arqCfg := s.arqCfg
    ttlCfg := s.ttlCfg
    port.txInflight := orphaned s.port.txInflight
    env := s.env }

/-- SOFT_RESET (R251): it never fails. -/
def execSoftReset (s : State) : Host.Outcome State Fault Refusal := finishOk .softReset (softReset s)

/-- An illegal opcode (R252): CMD_STATUS only. -/
def illegalCommand (op : Byte) (s : State) : Host.Outcome State Fault Refusal :=
  .next { s with cmdStatus := { code := .illegalCmd, op := op } }

/-- Hardware reset (R56, R290): the block and the PHY agents; the parameters and the environment's further steps are not
the block's to reset (log 12). -/
def hardReset (s : State) : State := State.resetOf s.params s.env.agenda s.env.eventNo

end Sys2Proof.Machine
end

