-- ==== Sys2Proof/Machine/Dispatch.lean ====
section
/-! DEFINITION. One arm per command: the meaning of each row of 30_encoding.md R93. -/

namespace Sys2Proof.Machine

def exec (i : Instr) (s : State) : Host.Outcome State Fault Refusal :=
  match i with
  | .nop => Sys2Proof.Machine.execNop s
  | .txAlloc => Sys2Proof.Machine.execTxAlloc s
  | .txDiscard => Sys2Proof.Machine.execTxDiscard s
  | .arqSend => Sys2Proof.Machine.execArqSend s
  | .arqAbort => Sys2Proof.Machine.execArqAbort s
  | .rxRelease => Sys2Proof.Machine.execRxRelease s
  | .cksumGen => Sys2Proof.Machine.execCksumGen s
  | .cksumVerify => Sys2Proof.Machine.execCksumVerify s
  | .stuff => Sys2Proof.Machine.execStuff s
  | .unstuff => Sys2Proof.Machine.execUnstuff s
  | .parsePacket => Sys2Proof.Machine.execParsePacket s
  | .notifyPingResponse => Sys2Proof.Machine.execNotifyPingResponse s
  | .age => Sys2Proof.Machine.execAge s
  | .setOwnSeq => Sys2Proof.Machine.execSetOwnSeq s
  | .areNodesLinked => Sys2Proof.Machine.execAreNodesLinked s
  | .isDeviceOnline => Sys2Proof.Machine.execIsDeviceOnline s
  | .readLsRecord => Sys2Proof.Machine.execReadLsRecord s
  | .readNbRecord => Sys2Proof.Machine.execReadNbRecord s
  | .softReset => Sys2Proof.Machine.execSoftReset s

end Sys2Proof.Machine
end

