-- ==== Sys2Proof/Machine/HostPort.lean ====
section
/-! DEFINITION. The host register port: its map (10_state.md R22), reads (20_memory.md R71), writes (R72), the bus window
(R79), and the running of a command by a write to CMD (30_encoding.md R90). -/

namespace Sys2Proof.Machine

/-! ## The map -/

/-- The 24 registers (R22). -/
inductive PortReg where
  | params | framing | ctrl | addr | status | irqEn | cmd | arg0 | arg1 | result | cmdStatus | txResult | arqCfg
  | ttlCfg | rxInfo | rxEvent | pktStatus | mask | arqTimer | txInfo | rxFrameCount | rxDropCount | txFrameCount
  | txRetryCount
  deriving DecidableEq, Repr

/-- The byte offset of a register (R22). -/
def regOffset : PortReg → Nat
  | .params => 0x000
  | .framing => 0x004
  | .ctrl => 0x008
  | .addr => 0x00C
  | .status => 0x010
  | .irqEn => 0x014
  | .cmd => 0x018
  | .arg0 => 0x01C
  | .arg1 => 0x020
  | .result => 0x024
  | .cmdStatus => 0x028
  | .txResult => 0x02C
  | .arqCfg => 0x030
  | .ttlCfg => 0x034
  | .rxInfo => 0x038
  | .rxEvent => 0x03C
  | .pktStatus => 0x040
  | .mask => 0x044
  | .arqTimer => 0x048
  | .txInfo => 0x04C
  | .rxFrameCount => 0x050
  | .rxDropCount => 0x054
  | .txFrameCount => 0x058
  | .txRetryCount => 0x05C

/-- Every register, in the order of the map. -/
def allRegs : List PortReg :=
  [.params, .framing, .ctrl, .addr, .status, .irqEn, .cmd, .arg0, .arg1, .result, .cmdStatus, .txResult, .arqCfg,
   .ttlCfg, .rxInfo, .rxEvent, .pktStatus, .mask, .arqTimer, .txInfo, .rxFrameCount, .rxDropCount, .txFrameCount,
   .txRetryCount]

/-- The buffers that have a window (R22). -/
def allBufs : List Buf := [.pbufTx, .pbufRx, .fbufTx, .fbufRx, .abuf]

/-- What lies at an aligned offset (R22): a register, byte `i` of a buffer, or a reserved word. -/
inductive PortTarget where
  | reg (r : PortReg)
  | window (b : Buf) (i : Nat)
  | reserved
  deriving DecidableEq, Repr

/-- The map of R22. -/
def portTarget (off : BitVec 10) : PortTarget :=
  match allRegs.find? fun r => decide (regOffset r = off.toNat) with
  | some r => .reg r
  | none =>
    match allBufs.find? fun b => decide (bufBase b ≤ off.toNat) && decide (off.toNat < bufBase b + bufSize b) with
    | some b => .window b (off.toNat - bufBase b)
    | none => .reserved

/-- The port offset of a bus address, when it lies in the block's 1 KiB window (R79, R274). -/
def busOffset (p : Params) (addr : Nat) : Option (BitVec 10) :=
  if p.slnBase ≤ addr ∧ addr < p.slnBase + 1024 then some (BitVec.ofNat 10 (addr - p.slnBase)) else none

/-! ## Reads -/

/-- The value of a register, reserved bits 0 (R23-R43, R71). -/
def readReg (s : State) : PortReg → Word
  | .params => countAt 8 0 s.params.nNodes ||| countAt 8 8 maxFrag ||| countAt 8 16 maxPkt ||| countAt 8 24 1
  | .framing => fieldAt 0 s.params.flagByte ||| fieldAt 8 s.params.escByte ||| fieldAt 16 bcastAddr
  | .ctrl => bitAt 0 s.ctrl.enable ||| bitAt 1 s.ctrl.seqCheck ||| bitAt 2 s.ctrl.txMode
  | .addr => fieldAt 0 s.addr.myHw ||| fieldAt 8 s.addr.myLogical
  | .status => statusWord s
  | .irqEn => fieldAt 0 s.irqEn
  | .cmd => 0
  | .arg0 => s.arg0
  | .arg1 => s.arg1
  | .result => s.result
  | .cmdStatus => fieldAt 0 (cmdCodeBits s.cmdStatus.code) ||| fieldAt 8 s.cmdStatus.op
  | .txResult =>
    fieldAt 0 (txCodeBits s.txResult.code) ||| countAt 4 8 s.txResult.fragsDone ||| countAt 4 12 s.txResult.nfrag
  | .arqCfg => fieldAt 0 s.arqCfg.ackTimeout ||| fieldAt 16 s.arqCfg.maxRetries
  | .ttlCfg => fieldAt 0 s.ttlCfg.lsTtl ||| fieldAt 8 s.ttlCfg.nbTtl
  | .rxInfo =>
    fieldAt 0 s.rxInfo.len ||| fieldAt 8 s.rxInfo.src ||| fieldAt 16 s.rxInfo.pktType
      ||| bitAt 20 s.rxInfo.lsAccepted ||| bitAt 21 s.rxInfo.bcast ||| countAt 8 24 s.rx.offset
  | .rxEvent =>
    fieldAt 0 (rxCodeBits s.rxEvent.event) ||| countAt 8 8 s.rx.fbufRxLen ||| countAt 8 16 s.rxEvent.unstuffedLen
  | .pktStatus =>
    fieldAt 0 (vcodeBits s.pktStatus.vcode) ||| fieldAt 4 s.pktStatus.pktType
      ||| fieldAt 8 (actionBits s.pktStatus.action) ||| bitAt 12 s.pktStatus.topoSet
      ||| bitAt 13 s.pktStatus.delivered
  | .mask => s.mask
  | .arqTimer => fieldAt 0 s.tx.timer ||| countAt 8 16 s.tx.fragIdx ||| fieldAt 24 s.tx.retries
  | .txInfo =>
    fieldAt 0 s.tx.dest ||| countAt 8 8 s.tx.sendLen ||| countAt 8 16 s.tx.allocLen ||| countAt 3 24 s.tx.nfrag
      ||| bitAt 27 s.tx.curSeq
  | .rxFrameCount => s.counters.rxFrames
  | .rxDropCount => s.counters.rxDrops
  | .txFrameCount => s.counters.txFrames
  | .txRetryCount => s.counters.txRetries

/-- The word of a buffer window at byte `i`: little-endian (R71, R73). -/
def readWindow (m : Memory) (b : Buf) (i : Nat) : Word :=
  fieldAt 0 (bufRead m b i) ||| fieldAt 8 (bufRead m b (i + 1)) ||| fieldAt 16 (bufRead m b (i + 2))
    ||| fieldAt 24 (bufRead m b (i + 3))

/-- What an aligned 32-bit read returns (R71). -/
def readPort (s : State) (off : BitVec 10) : Word :=
  match portTarget off with
  | .reg r => readReg s r
  | .window b i => readWindow s.mem b i
  | .reserved => 0

/-- A host read (R71, R74): it changes no state of the block, but an access that is not aligned and of 32 bits returns 0
and sets ACCESS_ERR. The returned word is kept in `env.hostData` (log 5). -/
def hostRead (off : BitVec 10) (size : Nat) (s : State) : State :=
  if accessOk off size then { s with env.hostData := readPort s off }
  else raiseAccessErr { s with env.hostData := 0 }

/-! ## Writes -/

/-- The side effects of clearing ENABLE (70_reset_and_hazards.md R296): an active send is aborted and a waiting ACK is
discarded. -/
def disableEffects (s : State) : State :=
  let s := if s.tx.arqState = .sendingFragment ∨ s.tx.arqState = .awaitAck then abortSend s else s
  { s with port.ackPending := false }

/-- A write of `v` to CTRL (R25, R296). -/
def writeCtrl (v : Word) (s : State) : State :=
  let was := s.ctrl.enable
  let s := { s with ctrl := { enable := v.getLsbD 0, seqCheck := v.getLsbD 1, txMode := v.getLsbD 2 } }
  if was = true ∧ v.getLsbD 0 = false then disableEffects s else s

/-- A write of `v` to ADDR (R26): locked while enabled, and each field keeps its value when the new one is not legal. -/
def writeAddr (v : Word) (s : State) : State :=
  if s.ctrl.enable then raiseAccessErr s
  else
    { s with
      addr := { myHw := if byteOf v 0 = bcastAddr then s.addr.myHw else byteOf v 0
                myLogical := if inRange s (byteOf v 8) then byteOf v 8 else s.addr.myLogical } }

/-- A write of `v` to CMD runs the command it decodes to (R90, R94). -/
def runCommand (v : Word) (s : State) : Host.Outcome State Fault Refusal :=
  match decode v with
  | .ok i => exec i s
  | .error (.illegalOpcode op) => illegalCommand op s

/-- A 32-bit write to a register (R72): read-only registers ignore it. -/
def writeReg (r : PortReg) (v : Word) (s : State) : Host.Outcome State Fault Refusal :=
  match r with
  | .ctrl => .next (writeCtrl v s)
  | .addr => .next (writeAddr v s)
  | .status => .next (writeStatus v s)
  | .irqEn => .next { s with irqEn := byteOf v 0 }
  | .cmd => runCommand v s
  | .arg0 => .next { s with arg0 := v }
  | .arg1 => .next { s with arg1 := v }
  | .arqCfg => .next { s with arqCfg := { ackTimeout := v.extractLsb' 0 16, maxRetries := byteOf v 16 } }
  | .ttlCfg => .next { s with ttlCfg := { lsTtl := byteOf v 0, nbTtl := byteOf v 8 } }
  | .params => .next s
  | .framing => .next s
  | .result => .next s
  | .cmdStatus => .next s
  | .txResult => .next s
  | .rxInfo => .next s
  | .rxEvent => .next s
  | .pktStatus => .next s
  | .mask => .next s
  | .arqTimer => .next s
  | .txInfo => .next s
  | .rxFrameCount => .next s
  | .rxDropCount => .next s
  | .txFrameCount => .next s
  | .txRetryCount => .next s

/-- A 32-bit write to a buffer window (R72, R75, R76): only PBUF_TX is writable, and only while owned. -/
def writeWindow (b : Buf) (i : Nat) (v : Word) (s : State) : State :=
  match b with
  | .pbufTx =>
    if s.tx.txOwned then writeBuf s .pbufTx i [byteOf v 0, byteOf v 8, byteOf v 16, byteOf v 24]
    else raiseAccessErr s
  | .pbufRx => s
  | .fbufTx => s
  | .fbufRx => s
  | .abuf => s

/-- A host write (R72, R74). -/
def hostWrite (off : BitVec 10) (size : Nat) (v : Word) (s : State) : Host.Outcome State Fault Refusal :=
  if accessOk off size then
    match portTarget off with
    | .reg r => writeReg r v s
    | .window b i => .next (writeWindow b i v s)
    | .reserved => .next s
  else .next (raiseAccessErr s)

end Sys2Proof.Machine
end

