-- ==== Sys2Proof/Machine/Events.lean ====
section
/-! DEFINITION. The steps of the agents (00_scope.md R4): what each event does, which one comes next, and the host program
syntax of 30_encoding.md R96-R98 as lists of events. -/

namespace Sys2Proof.Machine

/-- One atomic step of an agent (R4, R78). -/
def runEvent (e : Event) (s : State) : Host.Outcome State Fault Refusal :=
  match e with
  | .hostWrite off size v => hostWrite off size v s
  | .hostRead off size => .next (hostRead off size s)
  | .rxOffer f => .next (offerFrame f s)
  | .rxTake => .next (rxTake s)
  | .txIssue => .next (txIssue s)
  | .txDone ok => .next (txDone ok s)
  | .msTick => .next (msTick s)
  | .hardReset => .next (hardReset s)

/-- The next event of the environment (R4, log 1): the head of the agenda, or, when it is used up, a free choice. -/
def nextEvent (s : State) : Event × State :=
  match s.env.agenda with
  | e :: rest => (e, { s with env.agenda := rest })
  | [] => (Config.environment s.env.eventNo, { s with env.eventNo := s.env.eventNo + 1 })

/-- Why an instance is outside the spec (60_exceptions.md R264), if it is. -/
def instanceRefusal (p : Params) : Option Refusal :=
  if p.framingOk = false then some .flagEqualsEsc
  else if p.nodesOk = false then some .nodeCountOutOfRange
  else none

/-- The offset of CMD (R22), where a write runs a command. -/
def cmdOffset : BitVec 10 := 0x018

/-- The host's write of the command word `w` to CMD. -/
def commandWrite (w : Word) : Event := .hostWrite cmdOffset 4 w

/-! ## Host programs (R96-R98) -/

/-- `WR <REG>, <imm32>` (R96). -/
def hostWr (r : PortReg) (v : Word) : Event := .hostWrite (BitVec.ofNat 10 (regOffset r)) 4 v

/-- `RD <REG>` (R96). -/
def hostRd (r : PortReg) : Event := .hostRead (BitVec.ofNat 10 (regOffset r)) 4

/-- `WR PBUF_TX+<k>, <imm32>` (R96). -/
def hostWrBuf (k : Nat) (v : Word) : Event := .hostWrite (BitVec.ofNat 10 (bufBase .pbufTx + k)) 4 v

/-- A command reads ARG0 (R92). -/
def readsArg0 : Instr → Bool
  | .nop | .txDiscard | .arqAbort | .rxRelease | .softReset => false
  | .txAlloc | .arqSend | .cksumGen | .cksumVerify | .stuff | .unstuff | .parsePacket | .notifyPingResponse | .age
  | .setOwnSeq | .areNodesLinked | .isDeviceOnline | .readLsRecord | .readNbRecord => true

/-- A command reads ARG1 (R92). -/
def readsArg1 : Instr → Bool
  | .cksumGen | .cksumVerify => true
  | .nop | .txAlloc | .txDiscard | .arqSend | .arqAbort | .rxRelease | .stuff | .unstuff | .parsePacket
  | .notifyPingResponse | .age | .setOwnSeq | .areNodesLinked | .isDeviceOnline | .readLsRecord | .readNbRecord
  | .softReset => false

/-- A command with the words its operand fields assemble to (R97). -/
def hostCommand (i : Instr) (a0 a1 : Word) : List Event :=
  (if readsArg0 i then [hostWr .arg0 a0] else []) ++ (if readsArg1 i then [hostWr .arg1 a1] else [])
    ++ [commandWrite (encode i)]

/-- The word of four bytes, the first one lowest, missing bytes 0 (R97). -/
def packBytes (bs : List Byte) : Word :=
  fieldAt 0 (bs.getD 0 0) ||| fieldAt 8 (bs.getD 1 0) ||| fieldAt 16 (bs.getD 2 0) ||| fieldAt 24 (bs.getD 3 0)

/-- `WRB PBUF_TX+<k>, b0, …` (R97), as `ceil(n/4)` writes. -/
def hostWrBytes (k : Nat) (bs : List Byte) : List Event :=
  (List.range ((bs.length + 3) / 4)).map fun j => hostWrBuf (k + 4 * j) (packBytes ((bs.drop (4 * j)).take 4))

/-- `W1C STATUS, <mask>` (R97). -/
def hostW1c (v : Word) : Event := hostWr .status v

/-- `@RX <frame>` (R98): PHY-RX offers a frame, which the block takes. -/
def atRx (f : List Byte) : List Event := [.rxOffer f, .rxTake]

/-- `@TICK <k>` (R98). -/
def atTick (k : Nat) : List Event := List.replicate k .msTick

end Sys2Proof.Machine
end

