-- ==== Sys2Proof/Machine/Step.lean ====
section
/-! DEFINITION. One step of the machine: one atomic step of one agent (00_scope.md R4, 60_exceptions.md R268). -/

namespace Sys2Proof.Machine

/-- One step. An instance outside the spec is refused (R264); otherwise the environment's next event happens. -/
def step (s : State) : Host.Outcome State Fault Refusal :=
  match instanceRefusal s.params with
  | some r => .refused r
  | none => runEvent (nextEvent s).1 (nextEvent s).2

/-- `s` with the host's write of the command word `w` to CMD as the very next event (log 13). The word has the `nbits`
low bits of `w`, the bits above are 0. -/
def State.withFetchWord (s : State) (nbits w : Nat) : State :=
  { s with env.agenda := commandWrite (BitVec.ofNat 32 (w % 2 ^ nbits)) :: s.env.agenda }

end Sys2Proof.Machine
end

