-- ==== Sys2Proof/Safety.lean ====
section
/-! DEFINITION. What counts as a good state: the invariants the rules give (42_arq.md R167, 10_state.md R53, the ranges of
R45, R46, R48 and R50), and quiescence (70_reset_and_hazards.md R297). -/

namespace Sys2Proof.Machine

/-- A send is active: `S.arq_state ≠ IDLE and ≠ DONE`. -/
def Active (s : State) : Prop := idleish s = false

/-- The sender invariants (R167), clause by clause. -/
structure SenderInv (s : State) : Prop where
  /-- (a) SENDING_FRAGMENT: exactly one of a pending and an in-flight data frame. -/
  sendingHasOneFrame : s.tx.arqState = .sendingFragment →
    (s.port.dataPending = true ∧ s.port.txInflight ≠ .data) ∨ (s.port.dataPending = false ∧ s.port.txInflight = .data)
  /-- (b) A data frame is in flight only in SENDING_FRAGMENT. -/
  inflightSending : s.port.txInflight = .data → s.tx.arqState = .sendingFragment
  /-- (c) In IDLE, DONE and AWAIT_ACK no data frame is pending. -/
  pendingSending : s.tx.arqState ≠ .sendingFragment → s.port.dataPending = false
  /-- (d) An abort is pending only while a data frame is in flight. -/
  abortInflight : s.port.abortPending = true → s.port.txInflight = .data
  /-- (e) PBUF_TX is not owned during a send. -/
  activeNotOwned : Active s → s.tx.txOwned = false
  /-- (f) The fragment index is below the fragment count, which is at most 6, during a send. -/
  activeFragment : Active s → s.tx.fragIdx < s.tx.nfrag ∧ s.tx.nfrag ≤ 6
  /-- (g) TX_DONE holds only in DONE. -/
  doneFlag : s.flags.txDone = true → s.tx.arqState = .done

/-- How far an active send is (R163, R177): as many fragments are done as the index says, and the count is that of the
length sent. -/
structure ProgressInv (s : State) : Prop where
  fragsDone : Active s → s.tx.fragsDone = s.tx.fragIdx
  fragCount : Active s → s.tx.nfrag = fragCount s.tx.sendLen

/-- The ranges of R37, R38, R45, R46 and R48: a register view of one of these counts loses no bit. -/
structure RangeInv (s : State) : Prop where
  allocLen : s.tx.allocLen ≤ 128
  sendLen : s.tx.sendLen ≤ 128
  nfrag : s.tx.nfrag ≤ 6
  fragIdx : s.tx.fragIdx ≤ 5
  fragsDone : s.tx.fragsDone ≤ 6
  fbufTxLen : s.port.fbufTxLen ≤ 64
  abufLen : s.port.abufLen ≤ 16
  rxOffset : s.rx.offset ≤ 128
  fbufRxLen : s.rx.fbufRxLen ≤ 64
  unstuffedLen : s.rxEvent.unstuffedLen ≤ 62
  resultFragsDone : s.txResult.fragsDone ≤ 6
  resultNfrag : s.txResult.nfrag ≤ 6

/-- The record files have N_NODES records each, masks have N_NODES bits, ADDR holds legal addresses (R26, R40, R50, R52),
and a live link-state record is known (R53(b), for every record). -/
structure RecordInv (s : State) : Prop where
  lsLength : s.ls.length = s.params.nNodes
  nbLength : s.nb.length = s.params.nNodes
  lsMask : ∀ r ∈ s.ls, r.mask.toNat < 2 ^ s.params.nNodes
  maskReg : s.mask.toNat < 2 ^ s.params.nNodes
  lsKnown : ∀ r ∈ s.ls, r.ttl ≠ 0 → r.known = true
  ownInRange : s.addr.myLogical.toNat < s.params.nNodes
  hwNotBcast : s.addr.myHw ≠ bcastAddr

/-- Memory is in its canonical form and holds nothing outside the buffers (R49). -/
structure MemInv (s : State) : Prop where
  canonical : memWf s.mem = true
  mapped : memMapped s.mem = true

/-- The agents: PHY-RX offers legal frames only (R190), and PHY-TX holds a frame exactly while the block says one is in
flight (R180-R182). -/
structure AgentInv (s : State) : Prop where
  offer : ∀ f, s.env.rxOffer = some f → frameOk f = true
  held : s.env.txHeld.isSome = true ↔ s.port.txInflight ≠ .none

/-- The invariant of the machine. -/
structure BlockInv (s : State) : Prop where
  params : s.params.wf = true
  sender : SenderInv s
  progress : ProgressInv s
  range : RangeInv s
  record : RecordInv s
  mem : MemInv s
  agent : AgentInv s

/-- R53(a): a record other than the own one that is not known is all zero. -/
def UnknownIsZero (s : State) : Prop := ∀ a, a ≠ own s → (lsGet s a).known = false → lsGet s a = zeroLs

/-- R53(b), for every record: a live record is known. -/
def LiveIsKnown (s : State) : Prop := ∀ a, (lsGet s a).ttl ≠ 0 → (lsGet s a).known = true

/-- R53(c) of one neighbour record: an absent one holds no address. -/
def AbsentHasNoPhys (s : State) (a : Byte) : Prop := (nbGet s a).ttl = 0 → (nbGet s a).phys = 0

/-- Quiescence (R297). -/
structure Quiescent (s : State) : Prop where
  idle : idleish s = true
  noData : s.port.dataPending = false
  noAck : s.port.ackPending = false
  noFlight : s.port.txInflight = .none
  noOffer : s.env.rxOffer = none ∨ s.ctrl.enable = false

/-- `k` MS_TICK events (R98). -/
def ticks : Nat → State → State
  | 0, s => s
  | k + 1, s => ticks k (msTick s)

/-- One unanswered round of a send (R186): the timeout's ticks, the retried frame's issue, and its completion by PHY-TX. -/
def retryRound (s : State) : State := txDone true (txIssue (ticks s.arqCfg.ackTimeout.toNat s))

/-- `n` unanswered rounds. -/
def retryRounds : Nat → State → State
  | 0, s => s
  | n + 1, s => retryRounds n (retryRound s)

/-! ## The words the statements are written in -/

/-- Every register reads its reset value, every buffer byte is 0x00, every record is zero, every element of R45-R48 has
its reset value, `irq` is 0, and the PHY agents hold nothing (R56, R290). PARAMS and FRAMING are constants of the
instance. -/
structure ResetValues (s : State) : Prop where
  regs : ∀ r, r ≠ .params → r ≠ .framing → r ≠ .ctrl → r ≠ .ttlCfg → readReg s r = 0
  ctrl : readReg s .ctrl = 0x00000004
  ttlCfg : readReg s .ttlCfg = 0x00001E1E
  bytes : ∀ b i, bufRead s.mem b i = 0
  records : ∀ a, lsGet s a = { known := false, seq := 0, ttl := 0, mask := 0 } ∧ nbGet s a = { phys := 0, ttl := 0 }
  sender : s.tx = { arqState := .idle, txOwned := false, allocLen := 0, dest := 0, sendLen := 0, nfrag := 0, fragIdx := 0,
                    curSeq := false, retries := 0, timer := 0, fragsDone := 0 }
  port : s.port = { dataPending := false, fbufTxLen := 0, ackPending := false, abufLen := 0, txInflight := .none,
                    abortPending := false }
  ack : s.ack = { latched := false, seq := false, src := 0 }
  rx : s.rx = { offset := 0, expected := false, ready := false, fbufRxLen := 0 }
  irq : Machine.irq s = false
  offer : s.env.rxOffer = none
  held : s.env.txHeld = none

/-- `m'` is `m` with the bytes `w` stored from port offset `base` on, and every other byte as before. -/
def Stores (m m' : Memory) (base : Nat) (w : List Byte) : Prop :=
  (∀ i, i < w.length → memRead m' (base + i) = w.getD i 0) ∧
  ∀ a, (a < base ∨ base + w.length ≤ a) → memRead m' a = memRead m a

/-- PHY-RX offers `f` and the block may take it (R190). -/
structure Offered (s : State) (f : List Byte) : Prop where
  enabled : s.ctrl.enable = true
  noAck : s.port.ackPending = false
  noFlight : s.port.txInflight ≠ .ack
  offer : s.env.rxOffer = some f
  low : 1 ≤ f.length
  high : f.length ≤ 64

/-- The format check of R191 passes. -/
def FormatGood (x : List Byte) : Prop :=
  7 ≤ x.length ∧ x.length = 7 + (x.getD 4 0).toNat ∧ (x.getD 4 0).toNat ≤ 23

/-- The address check of R192 passes. -/
def AddressGood (s : State) (x : List Byte) : Prop := x.getD 2 0 = s.addr.myHw ∨ x.getD 2 0 = 0xFF

/-- The checksum check of R192 passes: mode NONE, or the two trailing bytes are 0x00 and the parity. -/
def ChecksumGood (x : List Byte) : Prop :=
  (x.getD 1 0).getLsbD 4 = true →
    (x.getD (x.length - 2) 0).toNat * 256 + (x.getD (x.length - 1) 0).toNat = parityFold (x.take (x.length - 2))

/-- The interior `x` passes all of R191 and R192. -/
structure FrameGood (s : State) (x : List Byte) : Prop where
  format : FormatGood x
  address : AddressGood s x
  checksum : ChecksumGood x

/-- What taking the frame `f` and dropping it with event `ev` leaves (R190, R198): `m` is the unstuffed length. -/
def Dropped (s : State) (f : List Byte) (m : Nat) (ev : RxCode) (t : State) : Prop :=
  Stores s.mem t.mem 0x340 f ∧
  t = { s with
    mem := t.mem
    rx.fbufRxLen := f.length
    counters.rxFrames := s.counters.rxFrames + 1
    counters.rxDrops := s.counters.rxDrops + 1
    rxEvent := { event := ev, unstuffedLen := m }
    flags.rxError := if ev = .addressMismatch then s.flags.rxError else true
    env.rxOffer := none }

/-- The events that count as drops (R121, R198). -/
def isDrop : RxCode → Bool
  | .addressMismatch | .unstuffError | .formatError | .checksumError | .unknownControl | .rxBusy | .overflow => true
  | .none | .moreFramesExpected | .finalFrame | .controlAck | .controlRtc | .controlCtc | .duplicate => false

end Sys2Proof.Machine
end

