-- ==== Sys2Proof/Certificates/Slice0/Obligations.lean ====
section
/-! DEFINITION. The statements about SLN-LINK, each from the numbered rules of spec/. Operand fields are written as
arithmetic on ARG0 and ARG1 and results as arithmetic on the parts, apart from the model's own field helpers. -/

open Sys2Proof Sys2Proof.Machine

/-! ## Reset, steps and invariants -/

/-- R290, R56: what hardware reset leaves, right after reset and after a reset event in any state. That a reset event keeps
the parameters and the rest of the agenda is the model's own (log 12). -/
def Obligations.HardwareResetLeavesResetValues : Prop :=
  ResetValues State.reset ∧ readReg State.reset .params = 0x01801710 ∧ readReg State.reset .framing = 0x00FF7D7E ∧
  ∀ s rest, s.params.wf = true → s.env.agenda = .hardReset :: rest →
    ∃ t, step s = .next t ∧ ResetValues t ∧ t.params = s.params ∧ t.env.agenda = rest

/-- Every instance inside the spec starts in the invariant (R167, R290). -/
def Obligations.ResetMeetsTheInvariant : Prop :=
  ∀ p agenda n, p.wf = true → BlockInv (State.resetOf p agenda n)

/-- Every step of every agent keeps the invariant (R167, R200(b), R53). -/
def Obligations.StepKeepsTheInvariant : Prop :=
  ∀ s t, BlockInv s → step s = .next t → BlockInv t

/-- R167: the sender invariants alone are kept by every step. -/
def Obligations.StepKeepsTheSenderInvariants : Prop :=
  ∀ s t, SenderInv s → step s = .next t → SenderInv t

/-- R53: (a) while the own address does not change, (b) always, (c) but for a step taken while NB_TTL_S is 0. -/
def Obligations.StepKeepsTheRecordFacts : Prop :=
  ∀ s t, step s = .next t →
    (own t = own s → UnknownIsZero s → UnknownIsZero t) ∧
    (LiveIsKnown s → LiveIsKnown t) ∧
    (s.ttlCfg.nbTtl ≠ 0 → ∀ a, AbsentHasNoPhys s a → AbsentHasNoPhys t a)

/-- R264: an instance inside the spec never stops; one outside it is refused by name. -/
def Obligations.StepStopsOnlyOutsideTheSpec : Prop :=
  ∀ s : State, (s.params.wf = true → ∃ t, step s = .next t) ∧
    (s.params.flagByte = s.params.escByte → step s = .refused .flagEqualsEsc) ∧
    (s.params.flagByte ≠ s.params.escByte → (s.params.nNodes = 0 ∨ 32 < s.params.nNodes) →
      step s = .refused .nodeCountOutOfRange)

/-- R90, R94, R252: a write to CMD, as the next event, runs exactly the command its word decodes to; an illegal opcode
changes only CMD_STATUS. The agenda that holds the event is the model's own (log 1, log 13). -/
def Obligations.CommandWriteRunsTheDecodedCommand : Prop :=
  ∀ s w rest, s.params.wf = true → s.env.agenda = commandWrite w :: rest →
    (∀ i, decode w = .ok i → step s = exec i { s with env.agenda := rest }) ∧
    ((∀ i, w.toNat % 256 ≠ (opcode i).toNat) →
      step s = .next { s with env.agenda := rest, cmdStatus := { code := .illegalCmd, op := w.setWidth 8 } })

/-- R90, R91, R93, R94: a word decodes to a command exactly when its bits 7:0 are the command's opcode, whatever its other
bits are; and words of the table, written out, decode to the commands they stand for. -/
def Obligations.DecodeReadsTheOpcodeByte : Prop :=
  (∀ w i, decode w = .ok i ↔ w.toNat % 256 = (opcode i).toNat) ∧
  decode 0x00000000 = .ok .nop ∧ decode 0x00000001 = .ok .txAlloc ∧ decode 0x00000003 = .ok .arqSend ∧
  decode 0x00000010 = .ok .cksumGen ∧ decode 0x00000013 = .ok .unstuff ∧ decode 0x00000020 = .ok .parsePacket ∧
  decode 0x00000022 = .ok .age ∧ decode 0x00000033 = .ok .readNbRecord ∧ decode 0x000000FF = .ok .softReset ∧
  decode 0xFFFFFF00 = .ok .nop ∧ decode 0x00000006 = .error (.illegalOpcode 0x06) ∧
  decode 0x123456FE = .error (.illegalOpcode 0xFE)

/-! ## How commands end -/

/-- R33, R253, R260: every command ends in its own step and records its opcode; a command error changes only CMD_STATUS; and
each code comes from the commands and conditions listed. -/
def Obligations.CommandErrorsFollowTheTable : Prop :=
  ∀ i s, let lo := s.arg0.toNat % 256
    let hi := s.arg0.toNat / 256 % 256
    ∃ t, exec i s = .next t ∧ t.cmdStatus.op = opcode i ∧
    (t.cmdStatus.code ≠ .ok → t = { s with cmdStatus := { code := t.cmdStatus.code, op := opcode i } }) ∧
    t.cmdStatus.code ≠ .illegalCmd ∧
    (t.cmdStatus.code = .busy → i ∈ [.txAlloc, .arqSend, .stuff, .unstuff] ∧
      s.tx.arqState ≠ .idle ∧ s.tx.arqState ≠ .done) ∧
    (t.cmdStatus.code = .disabled → i = .arqSend ∧ s.ctrl.enable = false) ∧
    (t.cmdStatus.code = .noBuffer → i ∈ [.txDiscard, .arqSend, .stuff, .unstuff, .parsePacket] ∧ s.tx.txOwned = false) ∧
    (t.cmdStatus.code = .packetTooBig →
      (i = .txAlloc ∧ 128 < lo) ∨ (i = .arqSend ∧ (128 < hi ∨ (lo = 255 ∧ 23 < hi)))) ∧
    (t.cmdStatus.code = .invalidArg →
      (i = .txAlloc ∧ lo = 0) ∨ (i = .arqSend ∧ (hi = 0 ∨ s.tx.allocLen < hi)) ∨
      (i ∈ [.cksumGen, .cksumVerify] ∧ (1 < s.arg1.toNat % 4 ∨ 128 < lo + hi)) ∨
      (i = .stuff ∧ (lo < 1 ∨ 31 < lo)) ∨ (i = .unstuff ∧ (lo < 1 ∨ 64 < lo)) ∨ (i = .parsePacket ∧ 128 < lo) ∨
      (i ∈ [.readLsRecord, .readNbRecord] ∧ s.params.nNodes ≤ lo))

/-! ## System commands -/

/-- R250. -/
def Obligations.NopChangesOnlyCmdStatus : Prop :=
  ∀ s : State, exec .nop s = .next { s with cmdStatus := { code := .ok, op := 0x00 } }

/-- R251: reset but for the configuration, the in-flight mark and CMD_STATUS; the agents are not affected. -/
def Obligations.SoftResetKeepsConfiguration : Prop :=
  ∀ s : State, ∃ t, exec .softReset s = .next t ∧
    t.ctrl = s.ctrl ∧ t.addr = s.addr ∧ t.irqEn = s.irqEn ∧ t.arqCfg = s.arqCfg ∧ t.ttlCfg = s.ttlCfg ∧
    t.params = s.params ∧ t.env = s.env ∧
    readReg t .cmdStatus = 0x0000FF00 ∧
    readReg t .status = (if s.port.txInflight = .none then 0 else 0x0000C000) ∧
    (∀ r, r ∉ [.params, .framing, .ctrl, .addr, .irqEn, .arqCfg, .ttlCfg, .cmdStatus, .status] → readReg t r = 0) ∧
    (∀ b i, bufRead t.mem b i = 0) ∧ (∀ a, lsGet t a = zeroLs ∧ nbGet t a = zeroNb) ∧
    t.tx = State.reset.tx ∧ t.ack = State.reset.ack ∧ t.rx = State.reset.rx ∧
    t.port = { State.reset.port with txInflight := if s.port.txInflight = .none then .none else .orphan }

/-! ## Packet buffer and sender commands -/

/-- R160, R161: the checks of TX_ALLOC and TX_DISCARD in order, and what they do to the ownership of PBUF_TX. -/
def Obligations.TxBufferCommands : Prop :=
  ∀ s : State, let idle := s.tx.arqState = .idle ∨ s.tx.arqState = .done
    let len := s.arg0.toNat % 256
    (¬ idle → exec .txAlloc s = .next { s with cmdStatus := { code := .busy, op := 0x01 } }) ∧
    (idle → len = 0 → exec .txAlloc s = .next { s with cmdStatus := { code := .invalidArg, op := 0x01 } }) ∧
    (idle → 128 < len → exec .txAlloc s = .next { s with cmdStatus := { code := .packetTooBig, op := 0x01 } }) ∧
    (idle → 1 ≤ len → len ≤ 128 → exec .txAlloc s = .next { s with
      tx := { s.tx with txOwned := true, allocLen := len }, cmdStatus := { code := .ok, op := 0x01 } }) ∧
    (s.tx.txOwned = false → exec .txDiscard s = .next { s with cmdStatus := { code := .noBuffer, op := 0x02 } }) ∧
    (s.tx.txOwned = true → exec .txDiscard s = .next { s with
      tx := { s.tx with txOwned := false, allocLen := 0 }, cmdStatus := { code := .ok, op := 0x02 } })

/-- R162: the checks of ARQ_SEND, in order; a rejected ARQ_SEND changes only CMD_STATUS. -/
def Obligations.ArqSendRejects : Prop :=
  ∀ s : State, let idle := s.tx.arqState = .idle ∨ s.tx.arqState = .done
    let dest := s.arg0.toNat % 256
    let len := s.arg0.toNat / 256 % 256
    let ends (c : CmdCode) := exec .arqSend s = .next { s with cmdStatus := { code := c, op := 0x03 } }
    (s.ctrl.enable = false → ends .disabled) ∧
    (s.ctrl.enable = true → ¬ idle → ends .busy) ∧
    (s.ctrl.enable = true → idle → s.tx.txOwned = false → ends .noBuffer) ∧
    (s.ctrl.enable = true → idle → s.tx.txOwned = true → (128 < len ∨ (dest = 255 ∧ 23 < len)) → ends .packetTooBig) ∧
    (s.ctrl.enable = true → idle → s.tx.txOwned = true → ¬ (128 < len ∨ (dest = 255 ∧ 23 < len)) →
      (len = 0 ∨ s.tx.allocLen < len) → ends .invalidArg)

/-- R163, with R106 for the first fragment: an accepted ARQ_SEND starts the send in one step. The bytes stored are the
stuffed first frame, from FBUF_TX's first byte on. -/
def Obligations.ArqSendStartsTheSend : Prop :=
  ∀ s : State, let len := s.arg0.toNat / 256 % 256
    memWf s.mem = true → s.ctrl.enable = true → (s.tx.arqState = .idle ∨ s.tx.arqState = .done) → s.tx.txOwned = true →
    1 ≤ len → len ≤ 128 → len ≤ s.tx.allocLen → (s.arg0.toNat % 256 = 255 → len ≤ 23) →
    ∃ t, exec .arqSend s = .next t ∧
      (let l := min 23 len
       let ch := 1 + (if len ≤ 23 then 8 else 0) + (if s.ctrl.txMode then 16 else 0)
       let body := [0x00, BitVec.ofNat 8 ch, s.arg0.setWidth 8, s.addr.myHw, BitVec.ofNat 8 l] ++ bufBytes s.mem .pbufTx 0 l
       let w := stuffFrame s.params
         (body ++ [0x00, if s.ctrl.txMode then BitVec.ofNat 8 (parityFold body) else 0x00])
       Stores s.mem t.mem 0x300 w ∧
       t = { s with
         mem := t.mem
         tx := { s.tx with
           arqState := .sendingFragment, txOwned := false, dest := s.arg0.setWidth 8, sendLen := len,
           nfrag := (len + 22) / 23, fragIdx := 0, curSeq := false, retries := 0, timer := 0, fragsDone := 0 }
         flags.txDone := false
         txResult := { code := .none, fragsDone := 0, nfrag := 0 }
         port := { s.port with dataPending := true, fbufTxLen := w.length, abortPending := false }
         ack.latched := false
         cmdStatus := { code := .ok, op := 0x03 } })

/-- R166: ARQ_ABORT never fails; it ends the send at once, or marks the frame in flight. -/
def Obligations.ArqAbortCancels : Prop :=
  ∀ s : State, ∃ t, exec .arqAbort s = .next t ∧ t.cmdStatus = { code := .ok, op := 0x04 } ∧
    (let aborted : TxResult := { code := .aborted, fragsDone := s.tx.fragsDone, nfrag := s.tx.nfrag }
     ((s.tx.arqState = .idle ∨ s.tx.arqState = .done) → t = { s with cmdStatus := t.cmdStatus }) ∧
     (s.tx.arqState = .awaitAck → t = { s with
       txResult := aborted, flags.txDone := true, port.abortPending := false, tx.arqState := .done
       cmdStatus := t.cmdStatus }) ∧
     (s.tx.arqState = .sendingFragment → s.port.dataPending = true → t = { s with
       txResult := aborted, flags.txDone := true, tx.arqState := .done
       port := { s.port with abortPending := false, dataPending := false }, cmdStatus := t.cmdStatus }) ∧
     (s.tx.arqState = .sendingFragment → s.port.dataPending = false → t = { s with
       port.abortPending := true, cmdStatus := t.cmdStatus }))

/-- R168. -/
def Obligations.RxReleaseHandsBackTheBuffer : Prop :=
  ∀ s : State, (s.rx.ready = true → exec .rxRelease s = .next { s with
      rx.ready := false, cmdStatus := { code := .ok, op := 0x05 } }) ∧
    (s.rx.ready = false → exec .rxRelease s = .next { s with
      rx := { s.rx with offset := 0, expected := false }, cmdStatus := { code := .ok, op := 0x05 } })

/-! ## Checksum engine -/

/-- R133, R134: the two checksum commands on PBUF_TX or PBUF_RX. -/
def Obligations.ChecksumCommands : Prop :=
  ∀ s : State, let off := s.arg0.toNat % 256
    let len := s.arg0.toNat / 256 % 256
    let mode := s.arg1.toNat % 4
    let d := bufBytes s.mem (if s.arg1.toNat / 256 % 2 = 1 then .pbufRx else .pbufTx) off len
    let x := s.arg1.toNat / 65536
    ((1 < mode ∨ 128 < off + len) →
      exec .cksumGen s = .next { s with cmdStatus := { code := .invalidArg, op := 0x10 } } ∧
      exec .cksumVerify s = .next { s with cmdStatus := { code := .invalidArg, op := 0x11 } }) ∧
    (mode ≤ 1 → off + len ≤ 128 →
      exec .cksumGen s = .next { s with
        result := BitVec.ofNat 32 (if mode = 1 then parityFold d else 0), cmdStatus := { code := .ok, op := 0x10 } } ∧
      exec .cksumVerify s = .next { s with
        result := if mode = 1 ∧ x ≠ parityFold d then 0 else 1, cmdStatus := { code := .ok, op := 0x11 } })

/-- R135: (a) the order of bytes and of bits does not matter, (b) one flipped bit changes the checksum between 0 and 1,
(c) an even number of flipped bits does not, (d) concatenation, (e) mode NONE. The flipped bits are the 1 bits of the byte
string `m`. -/
def Obligations.ChecksumLaws : Prop :=
  let bits (d : List Byte) : List Bool := d.flatMap fun b => (List.range 8).map fun i => b.getLsbD i
  let flip (d m : List Byte) : List Byte := List.zipWith (· ^^^ ·) d m
  let flipped (m : List Byte) : Nat := (m.map popcount).sum
  (∀ d d', d.Perm d' → checksum .evenParity d = checksum .evenParity d') ∧
  (∀ d d', (bits d).Perm (bits d') → checksum .evenParity d = checksum .evenParity d') ∧
  (∀ d m, m.length = d.length → flipped m = 1 →
    (checksum .evenParity d = 0 ∧ checksum .evenParity (flip d m) = 1) ∨
    (checksum .evenParity d = 1 ∧ checksum .evenParity (flip d m) = 0)) ∧
  (∀ d m, m.length = d.length → flipped m % 2 = 0 → checksum .evenParity (flip d m) = checksum .evenParity d) ∧
  (∀ a b, checksum .evenParity (a ++ b) = checksum .evenParity a ^^^ checksum .evenParity b) ∧
  (∀ d x, checksum .none d = 0 ∧ verify .none x d = true)

/-! ## Frame codec -/

/-- R150. -/
def Obligations.StuffCommand : Prop :=
  ∀ s : State, let idle := s.tx.arqState = .idle ∨ s.tx.arqState = .done
    let k := s.arg0.toNat % 256
    let ends (c : CmdCode) := exec .stuff s = .next { s with cmdStatus := { code := c, op := 0x12 } }
    (¬ idle → ends .busy) ∧ (idle → s.tx.txOwned = false → ends .noBuffer) ∧
    (idle → s.tx.txOwned = true → (k < 1 ∨ 31 < k) → ends .invalidArg) ∧
    (memWf s.mem = true → idle → s.tx.txOwned = true → 1 ≤ k → k ≤ 31 →
      ∃ t, exec .stuff s = .next t ∧
        (let w := stuffFrame s.params (bufBytes s.mem .pbufTx 0 k)
         Stores s.mem t.mem 0x300 w ∧ w.length ≤ 64 ∧
         t = { s with mem := t.mem, result := BitVec.ofNat 32 w.length, cmdStatus := { code := .ok, op := 0x12 } }))

/-- R151: a failed unstuff is a result, with FBUF_TX unchanged. -/
def Obligations.UnstuffCommand : Prop :=
  ∀ s : State, let idle := s.tx.arqState = .idle ∨ s.tx.arqState = .done
    let n := s.arg0.toNat % 256
    let ends (c : CmdCode) := exec .unstuff s = .next { s with cmdStatus := { code := c, op := 0x13 } }
    let u := unstuffFrame s.params (bufBytes s.mem .pbufTx 0 n) n
    (¬ idle → ends .busy) ∧ (idle → s.tx.txOwned = false → ends .noBuffer) ∧
    (idle → s.tx.txOwned = true → (n < 1 ∨ 64 < n) → ends .invalidArg) ∧
    (idle → s.tx.txOwned = true → 1 ≤ n → n ≤ 64 → u = none →
      exec .unstuff s = .next { s with result := 0, cmdStatus := { code := .ok, op := 0x13 } }) ∧
    (∀ x, memWf s.mem = true → idle → s.tx.txOwned = true → 1 ≤ n → n ≤ 64 → u = some x →
      ∃ t, exec .unstuff s = .next t ∧ Stores s.mem t.mem 0x300 x ∧ 1 ≤ x.length ∧ x.length ≤ 62 ∧
        t = { s with mem := t.mem, result := BitVec.ofNat 32 x.length, cmdStatus := { code := .ok, op := 0x13 } })

/-- R141. -/
def Obligations.StuffedLengthCountsEscapes : Prop :=
  ∀ p x, (stuffFrame p x).length = x.length + 2 + x.countP (fun b => decide (b = p.flagByte) || decide (b = p.escByte)) ∧
    x.length + 2 ≤ (stuffFrame p x).length ∧ (stuffFrame p x).length ≤ 2 * x.length + 2 ∧
    (x.length ≤ 30 → (stuffFrame p x).length ≤ 62) ∧ (x.length = 7 → (stuffFrame p x).length ≤ 16)

/-- R144. -/
def Obligations.UnstuffUndoesStuff : Prop :=
  ∀ p, p.flagByte ≠ p.escByte →
    (∀ x, 1 ≤ x.length → unstuffFrame p (stuffFrame p x) (stuffFrame p x).length = some x) ∧
    stuffFrame p [] = [p.flagByte, p.flagByte] ∧
    unstuffFrame p (stuffFrame p []) (stuffFrame p []).length = none

/-- R143: no leading FLAG, a truncated frame, bytes after the closing FLAG, and an empty interior all fail. -/
def Obligations.UnstuffRejectsBadFrames : Prop :=
  ∀ p, p.flagByte ≠ p.escByte →
    (∀ b r n, b ≠ p.flagByte → unstuffFrame p (b :: r) n = none) ∧
    (∀ x n, n < (stuffFrame p x).length → unstuffFrame p (stuffFrame p x) n = none) ∧
    (∀ x y, y ≠ [] → unstuffFrame p (stuffFrame p x ++ y) (stuffFrame p x ++ y).length = none) ∧
    unstuffFrame p [p.flagByte, p.flagByte] 2 = none

/-- R146, R147, R191, R192, R132: a frame the block builds is unstuffed by a receiver to fields that are the ones built,
passes the format check, and verifies. -/
def Obligations.BuiltFrameParsesBack : Prop :=
  ∀ s cl ch d data, s.params.flagByte ≠ s.params.escByte → data.length ≤ 23 →
    ∃ x, unstuffFrame s.params (buildFrame s cl ch d data) (buildFrame s cl ch d data).length = some x ∧
      FormatGood x ∧ ChecksumGood x ∧ formatOk x = true ∧ rxVerified x = true ∧
      frameCl x = cl ∧ frameCh x = ch ∧ frameDest x = d ∧ frameSrc x = s.addr.myHw ∧
      frameLength x = data.length ∧ frameData x = data

/-! ## Parser and records -/

/-- R226: PARSE_PACKET runs the parser on PBUF_TX and never delivers. -/
def Obligations.ParsePacketCommand : Prop :=
  ∀ s : State, let n := s.arg0.toNat % 256
    let out := (parsePacket (bufBytes s.mem .pbufTx 0 n) ((s.arg0 >>> 8).setWidth 8) s).1
    let u := (parsePacket (bufBytes s.mem .pbufTx 0 n) ((s.arg0 >>> 8).setWidth 8) s).2
    (s.tx.txOwned = false → exec .parsePacket s = .next { s with cmdStatus := { code := .noBuffer, op := 0x20 } }) ∧
    (s.tx.txOwned = true → 128 < n →
      exec .parsePacket s = .next { s with cmdStatus := { code := .invalidArg, op := 0x20 } }) ∧
    (s.tx.txOwned = true → n ≤ 128 →
      exec .parsePacket s = .next { u with
        result := BitVec.ofNat 32 ((if out.vcode = .valid then 1 else 0) + (if out.lsAcc then 2 else 0)
          + (if out.vcode = .valid ∧ out.deliverable then 4 else 0))
        cmdStatus := { code := .ok, op := 0x20 } } ∧
      u.pktStatus.delivered = false ∧ u.rx = s.rx ∧ u.rxInfo = s.rxInfo ∧ u.flags.rxError = s.flags.rxError ∧
      u.mem = s.mem)

/-- R211, R118: the checks of Validate, in order, on the packet's bytes. -/
def Obligations.ValidationOrder : Prop :=
  ∀ p, let n := p.length
    let mode := (p.getD 1 0).toNat / 16 % 4
    let t := (p.getD 1 0).toNat % 16
    let ck := (p.getD (n - 2) 0).toNat * 256 + (p.getD (n - 1) 0).toNat
    let sumOk := mode = 0 ∨ ck = parityFold (p.take (n - 2))
    let lenOk := (t = 1 ∧ 5 ≤ n ∧ n = 7 + (p.getD 4 0).toNat) ∨ (t = 2 ∧ 5 ≤ n ∧ n = 7 + (p.getD 4 0).toNat) ∨
      (t = 3 ∧ n = 4) ∨ (t = 4 ∧ n = 5)
    (n < 4 → validate p = .tooShort) ∧
    (4 ≤ n → 1 < mode → validate p = .badMode) ∧
    (4 ≤ n → mode ≤ 1 → ¬ sumOk → validate p = .checksumFail) ∧
    (4 ≤ n → mode ≤ 1 → sumOk → (t = 0 ∨ 4 < t) → validate p = .badType) ∧
    (4 ≤ n → mode ≤ 1 → sumOk → 1 ≤ t → t ≤ 4 → ¬ lenOk → validate p = .lengthMismatch) ∧
    (4 ≤ n → mode ≤ 1 → sumOk → lenOk → validate p = .valid)

/-- R210, R212, R241(a): the parser reports what the validation and the dispatch say, and changes nothing else. -/
def Obligations.ParserDispatchesByType : Prop :=
  ∀ p ph s, let r := parsePacket p ph s
    let t := (p.getD 1 0).toNat % 16
    let report (u : State) (v : VCode) (a : RecAction) (topo : Bool) : State := { u with pktStatus :=
      { vcode := v, pktType := BitVec.ofNat 4 (if 2 ≤ p.length then t else 0), action := a, topoSet := topo, delivered := false } }
    (validate p ≠ .valid → r.1 = { vcode := validate p, action := .none, topo := false, deliverable := false, lsAcc := false } ∧
      r.2 = report s (validate p) .none false) ∧
    (validate p = .valid → (t = 1 ∨ t = 3) →
      r.1 = { vcode := .valid, action := .none, topo := false, deliverable := true, lsAcc := false } ∧
      r.2 = report s .valid .none false) ∧
    (validate p = .valid → t = 2 →
      let o := notifyLinkState (p.getD 2 0) (p.getD 3 0) ((p.drop 5).take (p.getD 4 0).toNat) s
      r.1 = { vcode := .valid, action := o.1.action, topo := o.1.topo, deliverable := o.1.acc, lsAcc := o.1.acc } ∧
      r.2 = report o.2 .valid o.1.action o.1.topo) ∧
    (validate p = .valid → t = 4 →
      let o := notifyPingResponse ph (p.getD 2 0) s
      r.1 = { vcode := .valid, action := o.1.action, topo := o.1.topo, deliverable := false, lsAcc := false } ∧
      r.2 = report o.2 .valid o.1.action o.1.topo)

/-- R230, R231: when a link-state packet is accepted, and the record it leaves. -/
def Obligations.LinkStateAcceptance : Prop :=
  ∀ src sq list s, s.params.wf = true → s.ls.length = s.params.nNodes →
    let o := notifyLinkState src sq list s
    let diff := (sq.toNat + 256 - (lsGet s src).seq.toNat) % 256
    let reject (a : RecAction) := o = ({ acc := false, action := a, topo := false }, s)
    let accept (a : RecAction) :=
      o.1.acc = true ∧ o.1.action = a ∧
      (lsGet o.2 src).known = true ∧ (lsGet o.2 src).seq = sq ∧ (lsGet o.2 src).ttl = s.ttlCfg.lsTtl ∧
      (∀ i, (lsGet o.2 src).mask.getLsbD i = true ↔ i < s.params.nNodes ∧ ∃ e ∈ list, e.toNat = i) ∧
      (o.1.topo = true ↔ (lsGet o.2 src).mask ≠ (lsGet s src).mask) ∧
      (∀ a, a ≠ src → lsGet o.2 a = lsGet s a) ∧
      o.2 = { s with ls := o.2.ls, flags.topoChanged := s.flags.topoChanged || o.1.topo }
    (s.params.nNodes ≤ src.toNat → reject .lsRejectRange) ∧
    (src.toNat < s.params.nNodes → src = s.addr.myLogical → reject .lsRejectSelf) ∧
    (src.toNat < s.params.nNodes → src ≠ s.addr.myLogical → (lsGet s src).known = false → accept .lsAcceptedFirst) ∧
    (src.toNat < s.params.nNodes → src ≠ s.addr.myLogical → (lsGet s src).known = true → 1 ≤ diff → diff ≤ 128 →
      accept .lsAcceptedNewer) ∧
    (src.toNat < s.params.nNodes → src ≠ s.addr.myLogical → (lsGet s src).known = true → ¬ (1 ≤ diff ∧ diff ≤ 128) →
      reject .lsRejectStale)

/-- R240: of the 256 sequence numbers, exactly those in s+1 .. s+128 (mod 256) are newer. -/
def Obligations.SequenceWindow : Prop :=
  ∀ old : Byte, ((List.range 256).filter fun q => seqNewer old (BitVec.ofNat 8 q)).length = 128 ∧
    (∀ k, 1 ≤ k → k ≤ 128 → seqNewer old (old + BitVec.ofNat 8 k) = true) ∧
    (∀ k, k ≤ 127 → seqNewer old (old - BitVec.ofNat 8 k) = false)

/-- R232, R233: a ping response, by command. -/
def Obligations.PingResponseCommand : Prop :=
  ∀ s : State, s.params.wf = true →
    let l := s.arg0.toNat / 256 % 256
    let me := s.addr.myLogical
    (s.params.nNodes ≤ l → exec .notifyPingResponse s = .next { s with
      result := 0, cmdStatus := { code := .ok, op := 0x21 } }) ∧
    (l < s.params.nNodes → s.ls.length = s.params.nNodes → s.nb.length = s.params.nNodes →
      me.toNat < s.params.nNodes →
      ∃ t, exec .notifyPingResponse s = .next t ∧
        (let wasClear := (lsGet s me).mask.getLsbD l = false
         nbGet t (BitVec.ofNat 8 l) = { phys := s.arg0.setWidth 8, ttl := s.ttlCfg.nbTtl } ∧
         (∀ a, a.toNat ≠ l → nbGet t a = nbGet s a) ∧
         (∀ i, (lsGet t me).mask.getLsbD i = ((lsGet s me).mask.getLsbD i || decide (i = l))) ∧
         lsGet t me = { lsGet s me with mask := (lsGet t me).mask } ∧
         (∀ a, a ≠ me → lsGet t a = lsGet s a) ∧
         t = { s with
           nb := t.nb, ls := t.ls
           flags.topoChanged := s.flags.topoChanged || decide wasClear
           result := if wasClear then 3 else 1
           cmdStatus := { code := .ok, op := 0x21 } }))

/-- R234: AGE, record by record, with the counts of expiries. -/
def Obligations.AgeExpiresRecords : Prop :=
  ∀ s : State, s.params.wf = true → s.ls.length = s.params.nNodes → s.nb.length = s.params.nNodes →
    s.addr.myLogical.toNat < s.params.nNodes →
    ∃ t, exec .age s = .next t ∧
      (let e := s.arg0.toNat % 65536
       let me := s.addr.myLogical
       let lsOut (a : Nat) := a ≠ me.toNat ∧ (s.ls.getD a zeroLs).ttl ≠ 0 ∧ (s.ls.getD a zeroLs).ttl.toNat ≤ e
       let nbOut (a : Nat) := (s.nb.getD a zeroNb).ttl ≠ 0 ∧ (s.nb.getD a zeroNb).ttl.toNat ≤ e
       let nls := (List.range s.params.nNodes).countP fun a => decide (lsOut a)
       let nnb := (List.range s.params.nNodes).countP fun a => decide (nbOut a)
       (∀ a, a < s.params.nNodes → a ≠ me.toNat →
         (lsOut a → t.ls.getD a zeroLs = zeroLs) ∧
         (¬ lsOut a → t.ls.getD a zeroLs =
           { s.ls.getD a zeroLs with ttl := BitVec.ofNat 8 ((s.ls.getD a zeroLs).ttl.toNat - e) })) ∧
       lsGet t me = { lsGet s me with mask := (lsGet t me).mask } ∧
       (∀ i, i < s.params.nNodes →
         (lsGet t me).mask.getLsbD i = ((lsGet s me).mask.getLsbD i && !decide (nbOut i))) ∧
       (∀ i, s.params.nNodes ≤ i → (lsGet t me).mask.getLsbD i = (lsGet s me).mask.getLsbD i) ∧
       (∀ a, a < s.params.nNodes →
         (nbOut a → t.nb.getD a zeroNb = { phys := 0, ttl := 0 }) ∧
         (¬ nbOut a → t.nb.getD a zeroNb =
           { s.nb.getD a zeroNb with ttl := BitVec.ofNat 8 ((s.nb.getD a zeroNb).ttl.toNat - e) })) ∧
       t = { s with
         ls := t.ls, nb := t.nb
         flags.topoChanged := s.flags.topoChanged || decide (0 < nls + nnb)
         result := BitVec.ofNat 32 (nls + 256 * nnb)
         cmdStatus := { code := .ok, op := 0x22 } })

/-- R235. -/
def Obligations.SetOwnSeqCommand : Prop :=
  ∀ s : State, s.addr.myLogical.toNat < s.ls.length →
    ∃ t, exec .setOwnSeq s = .next t ∧
      lsGet t s.addr.myLogical = { lsGet s s.addr.myLogical with seq := s.arg0.setWidth 8 } ∧
      (∀ a, a ≠ s.addr.myLogical → lsGet t a = lsGet s a) ∧
      t = { s with ls := t.ls, cmdStatus := { code := .ok, op := 0x23 } }

/-- R236-R239: the queries and the record reads; only RESULT, MASK and CMD_STATUS change. -/
def Obligations.QueryAndReadCommands : Prop :=
  ∀ s : State, s.params.wf = true →
    let a := s.arg0.toNat % 256
    let b := s.arg0.toNat / 256 % 256
    let me := s.addr.myLogical.toNat
    let l := s.ls.getD a zeroLs
    let n := s.nb.getD a zeroNb
    exec .areNodesLinked s = .next { s with
      result := if a < s.params.nNodes ∧ b < s.params.nNodes ∧ (a = me ∨ l.ttl ≠ 0#8) ∧ l.mask.getLsbD b = true then 1 else 0
      cmdStatus := { code := .ok, op := 0x30 } } ∧
    exec .isDeviceOnline s = .next { s with
      result := if a = me ∨ (a < s.params.nNodes ∧ l.ttl ≠ 0#8) then 1 else 0
      cmdStatus := { code := .ok, op := 0x31 } } ∧
    (s.params.nNodes ≤ a →
      exec .readLsRecord s = .next { s with cmdStatus := { code := .invalidArg, op := 0x32 } } ∧
      exec .readNbRecord s = .next { s with cmdStatus := { code := .invalidArg, op := 0x33 } }) ∧
    (a < s.params.nNodes →
      exec .readLsRecord s = .next { s with
        result := BitVec.ofNat 32 (l.seq.toNat + 256 * l.ttl.toNat + 65536 * (if l.known then 1 else 0)
          + 131072 * (if a = me then 1 else 0))
        mask := l.mask
        cmdStatus := { code := .ok, op := 0x32 } } ∧
      exec .readNbRecord s = .next { s with
        result := BitVec.ofNat 32 (n.phys.toNat + 256 * n.ttl.toNat), cmdStatus := { code := .ok, op := 0x33 } })

/-! ## What commands leave alone -/

/-- R31, R54, R260 and each command's own rule: the frame of every command, by group (of SOFT_RESET,
SoftResetKeepsConfiguration says every field). Configuration registers, the agents
and the parameters never change; ARG0, ARG1 and the counters change only under SOFT_RESET; STUFF, UNSTUFF and ARQ_SEND
store inside FBUF_TX and every other command but SOFT_RESET stores nothing. -/
def Obligations.CommandsLeaveTheRestAlone : Prop :=
  ∀ i s t, exec i s = .next t →
    (t.params = s.params ∧ t.ctrl = s.ctrl ∧ t.addr = s.addr ∧ t.irqEn = s.irqEn ∧ t.arqCfg = s.arqCfg ∧
      t.ttlCfg = s.ttlCfg ∧ t.env = s.env) ∧
    (i ≠ .softReset → t.arg0 = s.arg0 ∧ t.arg1 = s.arg1 ∧ t.counters = s.counters ∧ t.rxInfo = s.rxInfo ∧
      t.rxEvent = s.rxEvent) ∧
    (i ∈ [.nop, .cksumGen, .cksumVerify, .areNodesLinked, .isDeviceOnline, .readNbRecord] →
      t = { s with result := t.result, cmdStatus := t.cmdStatus }) ∧
    (i = .readLsRecord → t = { s with result := t.result, mask := t.mask, cmdStatus := t.cmdStatus }) ∧
    (i ∈ [.parsePacket, .notifyPingResponse, .age, .setOwnSeq] → t = { s with
      result := t.result, cmdStatus := t.cmdStatus, pktStatus := t.pktStatus, ls := t.ls, nb := t.nb
      flags.topoChanged := t.flags.topoChanged }) ∧
    (i ∈ [.txAlloc, .txDiscard] → t = { s with
      tx := { s.tx with txOwned := t.tx.txOwned, allocLen := t.tx.allocLen }, cmdStatus := t.cmdStatus }) ∧
    (i = .rxRelease → t = { s with rx := { t.rx with fbufRxLen := s.rx.fbufRxLen }, cmdStatus := t.cmdStatus }) ∧
    (i = .arqAbort → t = { s with
      tx.arqState := t.tx.arqState, txResult := t.txResult, flags.txDone := t.flags.txDone
      port := { s.port with dataPending := t.port.dataPending, abortPending := t.port.abortPending }
      cmdStatus := t.cmdStatus }) ∧
    (i = .arqSend → t = { s with
      mem := t.mem, tx := { t.tx with allocLen := s.tx.allocLen }, txResult := t.txResult
      flags.txDone := t.flags.txDone, ack.latched := t.ack.latched
      port := { s.port with
        dataPending := t.port.dataPending, fbufTxLen := t.port.fbufTxLen, abortPending := t.port.abortPending }
      cmdStatus := t.cmdStatus }) ∧
    (i ∈ [.stuff, .unstuff] → t = { s with mem := t.mem, result := t.result, cmdStatus := t.cmdStatus }) ∧
    (i ≠ .softReset → i ∉ [.stuff, .unstuff, .arqSend] → ∀ a, memRead t.mem a = memRead s.mem a) ∧
    (memWf s.mem = true → i ∈ [.stuff, .unstuff, .arqSend] →
      ∀ a, (a < 0x300 ∨ 0x340 ≤ a) → memRead t.mem a = memRead s.mem a)

/-! ## The host port -/

/-- R71, R73, R78: an aligned read of a buffer window returns its four bytes, the lowest first, and changes nothing in the
block. That the returned word is kept in `env.hostData` is the model's own (log 5). -/
def Obligations.WindowReadsAreLittleEndian : Prop :=
  ∀ s b w, 4 * w < bufSize b →
    ∃ t, runEvent (.hostRead (BitVec.ofNat 10 (bufBase b + 4 * w)) 4) s = .next t ∧
      t = { s with env.hostData := t.env.hostData } ∧
      ∀ i, i < 4 → t.env.hostData.toNat / 2 ^ (8 * i) % 256 = (bufRead s.mem b (4 * w + i)).toNat

/-- R75, R76: a write to PBUF_TX stores four bytes while owned, and otherwise only sets ACCESS_ERR. -/
def Obligations.PbufTxWritesNeedOwnership : Prop :=
  ∀ s w v, w < 32 →
    let e := Event.hostWrite (BitVec.ofNat 10 (0x100 + 4 * w)) 4 v
    (s.tx.txOwned = false → runEvent e s = .next { s with flags.accessErr := true }) ∧
    (s.tx.txOwned = true → memWf s.mem = true → ∃ t, runEvent e s = .next t ∧ t = { s with mem := t.mem } ∧
      (∀ i, i < 4 → (bufRead t.mem .pbufTx (4 * w + i)).toNat = v.toNat / 2 ^ (8 * i) % 256) ∧
      (∀ a, (a < 0x100 + 4 * w ∨ 0x100 + 4 * w + 4 ≤ a) → memRead t.mem a = memRead s.mem a))

/-- R22, R44, R72, R74: an access that is not aligned or not of 32 bits reads 0, writes nothing and sets ACCESS_ERR; a
reserved offset reads 0; a write to one, to a read-only register or to another buffer's window changes nothing. That the
returned word is kept in `env.hostData` is the model's own (log 5). -/
def Obligations.AccessesWithoutEffect : Prop :=
  ∀ s off size v,
    ((size ≠ 4 ∨ off.toNat % 4 ≠ 0) →
      runEvent (.hostWrite off size v) s = .next { s with flags.accessErr := true } ∧
      runEvent (.hostRead off size) s = .next { s with flags.accessErr := true, env.hostData := 0 }) ∧
    (off.toNat % 4 = 0 →
      let a := off.toNat
      let reserved := (0x060 ≤ a ∧ a < 0x100) ∨ (0x180 ≤ a ∧ a < 0x200) ∨ (0x280 ≤ a ∧ a < 0x300) ∨ 0x390 ≤ a
      let readOnly := a ∈ [0x000, 0x004, 0x024, 0x028, 0x02C, 0x038, 0x03C, 0x040, 0x044, 0x048, 0x04C, 0x050, 0x054, 0x058,
        0x05C]
      (reserved → runEvent (.hostRead off 4) s = .next { s with env.hostData := 0 }) ∧
      (reserved ∨ readOnly ∨ (0x200 ≤ a ∧ a < 0x280) ∨ (0x300 ≤ a ∧ a < 0x390) →
        runEvent (.hostWrite off 4 v) s = .next s))

/-- R29, R31, R35, R36, R71: a plain register reads back what was written, reserved bits 0, and nothing else changes. -/
def Obligations.RegisterWritesReadBack : Prop :=
  ∀ s v, ∃ t1 t2 t3 t4 t5,
    runEvent (.hostWrite 0x014 4 v) s = .next t1 ∧ readReg t1 .irqEn = v &&& 0x000000FF ∧ t1 = { s with irqEn := t1.irqEn } ∧
    runEvent (.hostWrite 0x01C 4 v) s = .next t2 ∧ readReg t2 .arg0 = v ∧ t2 = { s with arg0 := t2.arg0 } ∧
    runEvent (.hostWrite 0x020 4 v) s = .next t3 ∧ readReg t3 .arg1 = v ∧ t3 = { s with arg1 := t3.arg1 } ∧
    runEvent (.hostWrite 0x030 4 v) s = .next t4 ∧ readReg t4 .arqCfg = v &&& 0x00FFFFFF ∧
      t4 = { s with arqCfg := t4.arqCfg } ∧
    runEvent (.hostWrite 0x034 4 v) s = .next t5 ∧ readReg t5 .ttlCfg = v &&& 0x0000FFFF ∧ t5 = { s with ttlCfg := t5.ttlCfg }

/-- R26: ADDR is locked while enabled, and refuses the broadcast address and a logical address above MAX_ADDRESS. -/
def Obligations.AddrWrites : Prop :=
  ∀ s v, s.params.wf = true →
    let e := Event.hostWrite 0x00C 4 v
    let hw := v.toNat % 256
    let logical := v.toNat / 256 % 256
    (s.ctrl.enable = true → runEvent e s = .next { s with flags.accessErr := true }) ∧
    (s.ctrl.enable = false → ∃ t, runEvent e s = .next t ∧ t = { s with addr := t.addr } ∧
      t.addr.myHw.toNat = (if hw = 255 then s.addr.myHw.toNat else hw) ∧
      t.addr.myLogical.toNat = (if s.params.nNodes ≤ logical then s.addr.myLogical.toNat else logical))

/-- R28: write-1-to-clear, and the return from DONE to IDLE. -/
def Obligations.StatusWritesClear : Prop :=
  ∀ s v, ∃ t, runEvent (.hostWrite 0x010 4 v) s = .next t ∧
    t = { s with flags := t.flags, tx.arqState := t.tx.arqState } ∧
    t.tx.arqState = (if v.toNat % 2 = 1 ∧ s.tx.arqState = .done then .idle else s.tx.arqState) ∧
    (∀ i, i ∈ [0, 2, 3, 4, 5, 6, 7] →
      (readReg t .status).getLsbD i = ((readReg s .status).getLsbD i && !v.getLsbD i)) ∧
    (∀ i, i ∉ [0, 2, 3, 4, 5, 6, 7, 12, 13] → (readReg t .status).getLsbD i = (readReg s .status).getLsbD i)

/-- R25, R296: a write to CTRL; clearing ENABLE aborts an active send and discards a waiting ACK. -/
def Obligations.CtrlWrites : Prop :=
  ∀ s v, ∃ t, runEvent (.hostWrite 0x008 4 v) s = .next t ∧ readReg t .ctrl = v &&& 0x00000007 ∧
    ((s.ctrl.enable = false ∨ v.toNat % 2 = 1) → t = { s with ctrl := t.ctrl }) ∧
    (s.ctrl.enable = true → v.toNat % 2 = 0 →
      let aborted : TxResult := { code := .aborted, fragsDone := s.tx.fragsDone, nfrag := s.tx.nfrag }
      ((s.tx.arqState = .idle ∨ s.tx.arqState = .done) → t = { s with ctrl := t.ctrl, port.ackPending := false }) ∧
      (s.tx.arqState = .awaitAck → t = { s with
        ctrl := t.ctrl, txResult := aborted, flags.txDone := true, tx.arqState := .done
        port := { s.port with ackPending := false, abortPending := false } }) ∧
      (s.tx.arqState = .sendingFragment → s.port.dataPending = true → t = { s with
        ctrl := t.ctrl, txResult := aborted, flags.txDone := true, tx.arqState := .done
        port := { s.port with ackPending := false, abortPending := false, dataPending := false } }) ∧
      (s.tx.arqState = .sendingFragment → s.port.dataPending = false → t = { s with
        ctrl := t.ctrl, port := { s.port with ackPending := false, abortPending := true } }))

/-- R27, R265, R266: every field of STATUS where the table puts it, and the interrupt output, source by source. -/
def Obligations.StatusFieldsAndIrq : Prop :=
  ∀ s : State, let v := readReg s .status
    v.getLsbD 0 = s.flags.txDone ∧ v.getLsbD 1 = s.rx.ready ∧ v.getLsbD 2 = s.flags.topoChanged ∧
    v.getLsbD 3 = s.flags.rxError ∧ v.getLsbD 4 = s.flags.seqMismatch ∧ v.getLsbD 5 = s.flags.rtcLatch ∧
    v.getLsbD 6 = s.flags.ctcLatch ∧ v.getLsbD 7 = s.flags.accessErr ∧ v.getLsbD 8 = s.tx.txOwned ∧
    v.getLsbD 9 = s.port.ackPending ∧ v.getLsbD 10 = s.port.dataPending ∧ v.getLsbD 11 = s.port.abortPending ∧
    v.toNat / 4096 % 4 = (match s.tx.arqState with | .idle => 0 | .sendingFragment => 1 | .awaitAck => 2 | .done => 3) ∧
    v.toNat / 16384 % 4 = (match s.port.txInflight with | .none => 0 | .ack => 1 | .data => 2 | .orphan => 3) ∧
    v.getLsbD 16 = s.ack.latched ∧ v.getLsbD 17 = s.ack.seq ∧ v.getLsbD 18 = s.rx.expected ∧
    v.toNat / 2 ^ 19 % 32 = 0 ∧ v.toNat / 2 ^ 24 = s.ack.src.toNat ∧
    irq s = ((s.flags.txDone && s.irqEn.getLsbD 0) || (s.rx.ready && s.irqEn.getLsbD 1) ||
      (s.flags.topoChanged && s.irqEn.getLsbD 2) || (s.flags.rxError && s.irqEn.getLsbD 3) ||
      (s.flags.seqMismatch && s.irqEn.getLsbD 4) || (s.flags.rtcLatch && s.irqEn.getLsbD 5) ||
      (s.flags.ctcLatch && s.irqEn.getLsbD 6) || (s.flags.accessErr && s.irqEn.getLsbD 7))

/-- R22, R71: a 32-bit read at a register's offset returns the register and changes nothing in the block; and R23-R26, R29,
R31-R43: where every register but STATUS (StatusFieldsAndIrq) has its fields, with reserved bits 0. That the returned word
is kept in `env.hostData` is the model's own (log 5); the counts fit their fields by the model's invariant (log 11). -/
def Obligations.RegisterReadsShowTheFields : Prop :=
  (∀ s, ∀ q ∈ ([(0x000, .params), (0x004, .framing), (0x008, .ctrl), (0x00C, .addr), (0x010, .status), (0x014, .irqEn),
      (0x018, .cmd), (0x01C, .arg0), (0x020, .arg1), (0x024, .result), (0x028, .cmdStatus), (0x02C, .txResult),
      (0x030, .arqCfg), (0x034, .ttlCfg), (0x038, .rxInfo), (0x03C, .rxEvent), (0x040, .pktStatus), (0x044, .mask),
      (0x048, .arqTimer), (0x04C, .txInfo), (0x050, .rxFrameCount), (0x054, .rxDropCount), (0x058, .txFrameCount),
      (0x05C, .txRetryCount)] : List (BitVec 10 × PortReg)),
    runEvent (.hostRead q.1 4) s = .next { s with env.hostData := readReg s q.2 }) ∧
  ∀ s : State, s.params.wf = true → RangeInv s →
    let v (r : PortReg) := (readReg s r).toNat
    v .params = s.params.nNodes + 2 ^ 8 * 23 + 2 ^ 16 * 128 + 2 ^ 24 ∧
    v .framing = s.params.flagByte.toNat + 2 ^ 8 * s.params.escByte.toNat + 2 ^ 16 * 255 ∧
    v .ctrl = s.ctrl.enable.toNat + 2 * s.ctrl.seqCheck.toNat + 4 * s.ctrl.txMode.toNat ∧
    v .addr = s.addr.myHw.toNat + 2 ^ 8 * s.addr.myLogical.toNat ∧
    v .irqEn = s.irqEn.toNat ∧ v .cmd = 0 ∧ v .arg0 = s.arg0.toNat ∧ v .arg1 = s.arg1.toNat ∧
    v .result = s.result.toNat ∧
    v .cmdStatus = (match s.cmdStatus.code with
      | .ok => 0 | .illegalCmd => 1 | .busy => 2 | .disabled => 3 | .noBuffer => 4 | .packetTooBig => 5
      | .invalidArg => 6) + 2 ^ 8 * s.cmdStatus.op.toNat ∧
    v .txResult = (match s.txResult.code with
      | .none => 0 | .transmissionSuccess => 1 | .nodeUnreachable => 2 | .aborted => 3)
      + 2 ^ 8 * s.txResult.fragsDone + 2 ^ 12 * s.txResult.nfrag ∧
    v .arqCfg = s.arqCfg.ackTimeout.toNat + 2 ^ 16 * s.arqCfg.maxRetries.toNat ∧
    v .ttlCfg = s.ttlCfg.lsTtl.toNat + 2 ^ 8 * s.ttlCfg.nbTtl.toNat ∧
    v .rxInfo = s.rxInfo.len.toNat + 2 ^ 8 * s.rxInfo.src.toNat + 2 ^ 16 * s.rxInfo.pktType.toNat
      + 2 ^ 20 * s.rxInfo.lsAccepted.toNat + 2 ^ 21 * s.rxInfo.bcast.toNat + 2 ^ 24 * s.rx.offset ∧
    v .rxEvent = (match s.rxEvent.event with
      | .none => 0 | .moreFramesExpected => 1 | .finalFrame => 2 | .addressMismatch => 3 | .unstuffError => 4
      | .formatError => 5 | .checksumError => 6 | .controlAck => 7 | .controlRtc => 8 | .controlCtc => 9
      | .unknownControl => 10 | .rxBusy => 11 | .overflow => 12 | .duplicate => 13)
      + 2 ^ 8 * s.rx.fbufRxLen + 2 ^ 16 * s.rxEvent.unstuffedLen ∧
    v .pktStatus = (match s.pktStatus.vcode with
      | .none => 0 | .valid => 1 | .tooShort => 2 | .badMode => 3 | .checksumFail => 4 | .badType => 5
      | .lengthMismatch => 6) + 2 ^ 4 * s.pktStatus.pktType.toNat
      + 2 ^ 8 * (match s.pktStatus.action with
        | .none => 0 | .lsAcceptedFirst => 1 | .lsAcceptedNewer => 2 | .lsRejectRange => 3 | .lsRejectSelf => 4
        | .lsRejectStale => 5 | .prAccepted => 6 | .prRejectRange => 7)
      + 2 ^ 12 * s.pktStatus.topoSet.toNat + 2 ^ 13 * s.pktStatus.delivered.toNat ∧
    v .mask = s.mask.toNat ∧
    v .arqTimer = s.tx.timer.toNat + 2 ^ 16 * s.tx.fragIdx + 2 ^ 24 * s.tx.retries.toNat ∧
    v .txInfo = s.tx.dest.toNat + 2 ^ 8 * s.tx.sendLen + 2 ^ 16 * s.tx.allocLen + 2 ^ 24 * s.tx.nfrag
      + 2 ^ 27 * s.tx.curSeq.toNat ∧
    v .rxFrameCount = s.counters.rxFrames.toNat ∧ v .rxDropCount = s.counters.rxDrops.toNat ∧
    v .txFrameCount = s.counters.txFrames.toNat ∧ v .txRetryCount = s.counters.txRetries.toNat

/-! ## Sender steps -/

/-- R106, R176: BuildFragment stores the stuffed frame of the current fragment and makes it pending. -/
def Obligations.BuildFragmentMakesTheFrame : Prop :=
  ∀ s : State, memWf s.mem = true →
    let k := s.tx.fragIdx
    let l := min 23 (s.tx.sendLen - 23 * k)
    let ch := 1 + (if s.tx.curSeq then 4 else 0) + (if k + 1 = s.tx.nfrag then 8 else 0) + (if s.ctrl.txMode then 16 else 0)
    let body := [0x00, BitVec.ofNat 8 ch, s.tx.dest, s.addr.myHw, BitVec.ofNat 8 l] ++ bufBytes s.mem .pbufTx (23 * k) l
    let w := stuffFrame s.params (body ++ [0x00, if s.ctrl.txMode then BitVec.ofNat 8 (parityFold body) else 0x00])
    dataFrame s = w ∧ w.length ≤ 62 ∧ Stores s.mem (buildFragment s).mem 0x300 w ∧
    buildFragment s = { s with
      mem := (buildFragment s).mem
      port := { s.port with fbufTxLen := w.length, dataPending := true }
      ack.latched := false }

/-- R177, R178: what ArqCheckAck does in each case. -/
def Obligations.AckCheckAdvancesOrEnds : Prop :=
  ∀ s : State, memWf s.mem = true →
    let t := arqCheckAck s
    let good := s.ack.src = s.tx.dest ∧ s.ack.seq = s.tx.curSeq
    (¬ (s.tx.arqState = .awaitAck ∧ s.ack.latched = true) → t = s) ∧
    (s.tx.arqState = .awaitAck → s.ack.latched = true → ¬ good → t = { s with ack.latched := false }) ∧
    (s.tx.arqState = .awaitAck → s.ack.latched = true → good → s.tx.fragIdx + 1 = s.tx.nfrag → t = { s with
      ack.latched := false
      tx := { s.tx with fragsDone := s.tx.fragsDone + 1, arqState := .done }
      txResult := { code := .transmissionSuccess, fragsDone := s.tx.fragsDone + 1, nfrag := s.tx.nfrag }
      flags.txDone := true
      port.abortPending := false }) ∧
    (s.tx.arqState = .awaitAck → s.ack.latched = true → good → s.tx.fragIdx + 1 ≠ s.tx.nfrag →
      let tx := { s.tx with
        fragsDone := s.tx.fragsDone + 1, fragIdx := s.tx.fragIdx + 1, curSeq := !s.tx.curSeq, retries := 0, timer := 0 }
      let w := dataFrame { s with tx := tx }
      Stores s.mem t.mem 0x300 w ∧
      t = { s with
        mem := t.mem, tx := { tx with arqState := .sendingFragment }, ack.latched := false
        port := { s.port with fbufTxLen := w.length, dataPending := true } })

/-- R180: TX issue, with the bytes PHY-TX accepts; a waiting ACK goes first. That an event which is not enabled changes
nothing is the model's choice (log 2), and that the accepted bytes are kept in `env.txHeld` is log 4. -/
def Obligations.TxIssueSendsAckFirst : Prop :=
  ∀ s : State, let mayRun := s.ctrl.enable = true ∧ s.port.txInflight = .none
    (¬ mayRun ∨ (s.port.ackPending = false ∧ s.port.dataPending = false) → runEvent .txIssue s = .next s) ∧
    (mayRun → s.port.ackPending = true → runEvent .txIssue s = .next { s with
      env.txHeld := some (bufBytes s.mem .abuf 0 s.port.abufLen)
      port := { s.port with ackPending := false, txInflight := .ack }
      counters.txFrames := BitVec.ofNat 32 (s.counters.txFrames.toNat + 1) }) ∧
    (mayRun → s.port.ackPending = false → s.port.dataPending = true → runEvent .txIssue s = .next { s with
      env.txHeld := some (bufBytes s.mem .fbufTx 0 s.port.fbufTxLen)
      port := { s.port with dataPending := false, txInflight := .data }
      counters.txFrames := BitVec.ofNat 32 (s.counters.txFrames.toNat + 1) })

/-- R181: PHY-TX completion, for both success bits. That a completion with no frame in flight changes nothing is the
model's choice (log 2), and that the completion clears `env.txHeld` is log 4. -/
def Obligations.TxCompletion : Prop :=
  ∀ s ok, let free := { s with port.txInflight := .none, env.txHeld := none }
    let ended (c : TxCode) (n : Nat) : State := { free with
      txResult := { code := c, fragsDone := n, nfrag := s.tx.nfrag }
      flags.txDone := true
      port := { s.port with txInflight := .none, abortPending := false }
      tx := { s.tx with arqState := .done, fragsDone := n } }
    (s.port.txInflight = .none → runEvent (.txDone ok) s = .next s) ∧
    ((s.port.txInflight = .ack ∨ s.port.txInflight = .orphan) → runEvent (.txDone ok) s = .next free) ∧
    (s.port.txInflight = .data → s.port.abortPending = true →
      runEvent (.txDone ok) s = .next (ended .aborted s.tx.fragsDone)) ∧
    (s.port.txInflight = .data → s.port.abortPending = false → ok = false →
      runEvent (.txDone ok) s = .next (ended .nodeUnreachable s.tx.fragsDone)) ∧
    (s.port.txInflight = .data → s.port.abortPending = false → ok = true → s.tx.dest = 0xFF →
      runEvent (.txDone ok) s = .next (ended .transmissionSuccess 1)) ∧
    (s.port.txInflight = .data → s.port.abortPending = false → ok = true → s.tx.dest ≠ 0xFF →
      runEvent (.txDone ok) s = .next (arqCheckAck { free with tx := { s.tx with arqState := .awaitAck, timer := 0 } }))

/-- R185: MS_TICK counts, retries and gives up. -/
def Obligations.MsTickCountsAndRetries : Prop :=
  ∀ s : State, memWf s.mem = true →
    let T := s.arqCfg.ackTimeout.toNat
    let n := min (s.tx.timer.toNat + 1) 0xFFFF
    let ticking := s.tx.arqState = .awaitAck ∧ T ≠ 0
    (¬ ticking → runEvent .msTick s = .next s) ∧
    (ticking → n < T → runEvent .msTick s = .next { s with tx.timer := BitVec.ofNat 16 n }) ∧
    (ticking → T ≤ n → s.tx.retries.toNat < s.arqCfg.maxRetries.toNat →
      ∃ t, runEvent .msTick s = .next t ∧ Stores s.mem t.mem 0x300 (dataFrame s) ∧
        t = { s with
          mem := t.mem
          tx := { s.tx with
            arqState := .sendingFragment, timer := 0, retries := BitVec.ofNat 8 (s.tx.retries.toNat + 1) }
          counters.txRetries := BitVec.ofNat 32 (s.counters.txRetries.toNat + 1)
          port := { s.port with fbufTxLen := (dataFrame s).length, dataPending := true }
          ack.latched := false }) ∧
    (ticking → T ≤ n → s.arqCfg.maxRetries.toNat ≤ s.tx.retries.toNat → runEvent .msTick s = .next { s with
      tx := { s.tx with arqState := .done, timer := BitVec.ofNat 16 n }
      txResult := { code := .nodeUnreachable, fragsDone := s.tx.fragsDone, nfrag := s.tx.nfrag }
      flags.txDone := true
      port.abortPending := false })

/-- R186: with a timeout set, a unicast send that is never answered is retried exactly MAX_RETRIES times, spends exactly
ACK_TIMEOUT_MS ticks in AWAIT_ACK after each transmission, and then ends with NODE_UNREACHABLE. `s` is the state when the
first transmission has just completed. -/
def Obligations.UnansweredSendIsBounded : Prop :=
  ∀ s : State, s.tx.arqState = .awaitAck → s.tx.timer = 0 → s.tx.retries = 0 → s.arqCfg.ackTimeout ≠ 0 → s.ctrl.enable = true →
    s.port.ackPending = false → s.port.txInflight = .none → s.port.abortPending = false → s.tx.dest ≠ 0xFF →
    let T := s.arqCfg.ackTimeout.toNat
    let N := s.arqCfg.maxRetries.toNat
    let t := ticks T (retryRounds N s)
    (∀ n k, n ≤ N → k < T → (ticks k (retryRounds n s)).tx.arqState = .awaitAck) ∧
    t.tx.arqState = .done ∧ t.flags.txDone = true ∧
    t.txResult = { code := .nodeUnreachable, fragsDone := s.tx.fragsDone, nfrag := s.tx.nfrag } ∧
    t.tx.fragIdx = s.tx.fragIdx ∧ t.tx.curSeq = s.tx.curSeq ∧
    t.counters.txFrames = s.counters.txFrames + BitVec.ofNat 32 N ∧
    t.counters.txRetries = s.counters.txRetries + BitVec.ofNat 32 N

/-! ## The receive path -/

/-- R190, R55(c), R251, R310: a frame is offered and kept; it is not taken while the block is disabled or an ACK waits or is
on the port. That an event which is not enabled then changes nothing is the model's choice (log 2); that an offer replaces
another, is cut to 64 bytes and is no offer when empty is the model's choice too (log 3). -/
def Obligations.OfferedFramesWait : Prop :=
  ∀ s f, runEvent (.rxOffer f) s = .next { s with env.rxOffer := if f = [] then none else some (f.take 64) } ∧
    ((s.ctrl.enable = false ∨ s.port.ackPending = true ∨ s.port.txInflight = .ack ∨ s.env.rxOffer = none) →
      runEvent .rxTake s = .next s)

/-- R190-R192, R194-R196, R198: every check that drops a frame, in order, and exactly what a drop leaves. -/
def Obligations.BadFramesAreDropped : Prop :=
  ∀ s f, memWf s.mem = true → Offered s f →
    (unstuffFrame s.params f f.length = none →
      ∃ t, runEvent .rxTake s = .next t ∧ Dropped s f 0 .unstuffError t) ∧
    ∀ x, unstuffFrame s.params f f.length = some x →
      let drops (ev : RxCode) := ∃ t, runEvent .rxTake s = .next t ∧ Dropped s f x.length ev t
      (¬ FormatGood x → drops .formatError) ∧
      (FormatGood x → ¬ AddressGood s x → drops .addressMismatch) ∧
      (FormatGood x → AddressGood s x → ¬ ChecksumGood x → drops .checksumError) ∧
      (FrameGood s x → (x.getD 1 0).getLsbD 0 = false → x.getD 0 0 ∉ [0x01, 0x02, 0x03] → drops .unknownControl) ∧
      (FrameGood s x → (x.getD 1 0).getLsbD 0 = true → s.rx.ready = true → drops .rxBusy) ∧
      (FrameGood s x → (x.getD 1 0).getLsbD 0 = true → s.rx.ready = false →
        128 < s.rx.offset + (x.getD 4 0).toNat →
        ((x.getD 1 0).getLsbD 2 = s.rx.expected ∨ s.ctrl.seqCheck = false) →
        ∃ t, runEvent .rxTake s = .next t ∧ Dropped
          { s with
            rx := { s.rx with offset := 0, expected := false }
            flags.seqMismatch := s.flags.seqMismatch || decide ((x.getD 1 0).getLsbD 2 ≠ s.rx.expected) }
          f x.length .overflow t)

/-- R193, R194: the three control frames. -/
def Obligations.ControlFramesAreLatched : Prop :=
  ∀ s f x, memWf s.mem = true → Offered s f → unstuffFrame s.params f f.length = some x → FrameGood s x →
    (x.getD 1 0).getLsbD 0 = false →
    ∃ m, Stores s.mem m 0x340 f ∧
      (let taken (ev : RxCode) : State := { s with
        mem := m, rx.fbufRxLen := f.length, counters.rxFrames := s.counters.rxFrames + 1, env.rxOffer := none
        rxEvent := { event := ev, unstuffedLen := x.length } }
       (x.getD 0 0 = 0x01 → runEvent .rxTake s = .next (arqCheckAck { taken .controlAck with
         ack := { latched := true, seq := (x.getD 1 0).getLsbD 2, src := x.getD 3 0 } })) ∧
       (x.getD 0 0 = 0x02 → runEvent .rxTake s = .next { taken .controlRtc with flags.rtcLatch := true }) ∧
       (x.getD 0 0 = 0x03 → runEvent .rxTake s = .next { taken .controlCtc with flags.ctcLatch := true }))

/-- R196, D59: with SEQ_CHECK = 1 a data frame with the wrong sequence bit is flagged, acknowledged again unless broadcast,
and discarded, and it is no drop. -/
def Obligations.DuplicatesAreReacknowledged : Prop :=
  ∀ s f x, memWf s.mem = true → Offered s f → unstuffFrame s.params f f.length = some x → FrameGood s x →
    (x.getD 1 0).getLsbD 0 = true → s.rx.ready = false → (x.getD 1 0).getLsbD 2 ≠ s.rx.expected → s.ctrl.seqCheck = true →
    ∃ t m, Stores s.mem m 0x340 f ∧ runEvent .rxTake s = .next t ∧
      (let w := ackFrame s (x.getD 3 0) ((x.getD 1 0).getLsbD 2)
       let seen : State := { s with
        rx.fbufRxLen := f.length, counters.rxFrames := s.counters.rxFrames + 1, env.rxOffer := none
        rxEvent := { event := .duplicate, unstuffedLen := x.length }, flags.seqMismatch := true }
       (x.getD 2 0 = 0xFF → t = { seen with mem := m }) ∧
       (x.getD 2 0 ≠ 0xFF → Stores m t.mem 0x380 w ∧
         t = { seen with mem := t.mem, port := { s.port with abufLen := w.length, ackPending := true } }))

/-- R197, R110: an accepted data frame: the data is appended to PBUF_RX, the ACK is queued unless broadcast, the expected bit
toggles, and a final fragment resets the reassembly and is delivered. -/
def Obligations.DataFramesAreReassembled : Prop :=
  ∀ s f x, memWf s.mem = true → Offered s f → unstuffFrame s.params f f.length = some x → FrameGood s x →
    (x.getD 1 0).getLsbD 0 = true → s.rx.ready = false →
    ((x.getD 1 0).getLsbD 2 = s.rx.expected ∨ s.ctrl.seqCheck = false) →
    s.rx.offset + (x.getD 4 0).toNat ≤ 128 →
    ∃ m1 m2 m3, Stores s.mem m1 0x340 f ∧
      Stores m1 m2 (0x200 + s.rx.offset) ((x.drop 5).take (x.getD 4 0).toNat) ∧
      (let bc := x.getD 2 0 = 0xFF
       let sq := (x.getD 1 0).getLsbD 2
       let w := ackFrame s (x.getD 3 0) sq
       let len := s.rx.offset + (x.getD 4 0).toNat
       let base : State := { s with
         mem := m3, counters.rxFrames := s.counters.rxFrames + 1, env.rxOffer := none
         flags.seqMismatch := s.flags.seqMismatch || decide (sq ≠ s.rx.expected)
         port := if bc then s.port else { s.port with abufLen := w.length, ackPending := true } }
       (if bc then m3 = m2 else Stores m2 m3 0x380 w) ∧
       ((x.getD 1 0).getLsbD 3 = false → runEvent .rxTake s = .next { base with
         rx := { s.rx with offset := len, expected := !s.rx.expected, fbufRxLen := f.length }
         rxEvent := { event := .moreFramesExpected, unstuffedLen := x.length } }) ∧
       ((x.getD 1 0).getLsbD 3 = true → runEvent .rxTake s = .next (deliverPacket len (x.getD 3 0) (decide bc) { base with
         rx := { s.rx with offset := 0, expected := false, fbufRxLen := f.length }
         rxEvent := { event := .finalFrame, unstuffedLen := x.length } })))

/-- R110, R199: the ACK frame's wire form. -/
def Obligations.AckFrameLayout : Prop :=
  ∀ s d sq, let ch := (if sq then 4 else 0) + (if s.ctrl.txMode then 16 else 0)
    let body := [0x01, BitVec.ofNat 8 ch, d, s.addr.myHw, 0x00]
    ackFrame s d sq = stuffFrame s.params
      (body ++ [0x00, if s.ctrl.txMode then BitVec.ofNat 8 (parityFold body) else 0x00]) ∧
    9 ≤ (ackFrame s d sq).length ∧ (ackFrame s d sq).length ≤ 16

/-- R224: delivery of a reassembled packet, or its rejection. -/
def Obligations.DeliveryOfPackets : Prop :=
  ∀ len src bc s, let r := parsePacket (bufBytes s.mem .pbufRx 0 len) src s
    let t := deliverPacket len src bc s
    (r.1.vcode = .valid → r.1.deliverable = true → t = { r.2 with
      rx.ready := true
      rxInfo := { len := BitVec.ofNat 8 len, src := src, pktType := (bufRead s.mem .pbufRx 1).setWidth 4
                  lsAccepted := r.1.lsAcc, bcast := bc }
      pktStatus.delivered := true }) ∧
    (r.1.vcode = .valid → r.1.deliverable = false → t = r.2) ∧
    (r.1.vcode ≠ .valid → t = { r.2 with flags.rxError := true }) ∧
    t.mem = s.mem ∧ t.port = s.port ∧ t.rx.offset = s.rx.offset ∧ t.rxEvent = s.rxEvent

/-- R200(a), R200(c), R198, R43: every frame taken ends with exactly one event and is counted once; drops are counted once
and acknowledge nothing; an ACK is queued only for an accepted or duplicate frame that is no broadcast. -/
def Obligations.EveryTakenFrameHasOneEvent : Prop :=
  ∀ s f t, memWf s.mem = true → Offered s f → runEvent .rxTake s = .next t →
    t.rxEvent.event ≠ .none ∧ t.env.rxOffer = none ∧ t.rx.fbufRxLen = f.length ∧
    t.counters.rxFrames = s.counters.rxFrames + 1 ∧
    t.counters.rxDrops = s.counters.rxDrops + (if isDrop t.rxEvent.event then 1 else 0) ∧
    (isDrop t.rxEvent.event = true → t.rxEvent.event ≠ .addressMismatch → t.flags.rxError = true) ∧
    (t.port.ackPending = true → t.rxEvent.event ∈ [.moreFramesExpected, .finalFrame, .duplicate] ∧
      ∃ x, unstuffFrame s.params f f.length = some x ∧ x.getD 2 0 = s.addr.myHw)

/-! ## Whole-machine rules -/

/-- R241(d), R54: TOPO_CHANGED rises only at a packet parsed, a ping response or AGE. -/
def Obligations.TopoChangedRisesOnlyAtRecordUpdates : Prop :=
  ∀ e s t, runEvent e s = .next t → s.flags.topoChanged = false → t.flags.topoChanged = true →
    e = .rxTake ∨ ∃ off size v, e = .hostWrite off size v ∧ off = 0x018 ∧
      (decode v = .ok .parsePacket ∨ decode v = .ok .notifyPingResponse ∨ decode v = .ok .age)

/-- R297: in a quiescent state no autonomous step but MS_TICK can run, and MS_TICK changes nothing. That an event which is
not enabled changes nothing, whatever bit a completion would draw, is the model's choice (log 2). -/
def Obligations.QuiescentStatesRest : Prop :=
  ∀ s : State, Quiescent s → runEvent .txIssue s = .next s ∧ runEvent .rxTake s = .next s ∧ runEvent .msTick s = .next s ∧
    ∀ ok, runEvent (.txDone ok) s = .next s

/-- R76, R84, R301(c): while a send is active no step changes a byte of PBUF_TX, but for hardware reset and the write of
SOFT_RESET to CMD. -/
def Obligations.PbufTxIsStableDuringASend : Prop :=
  ∀ e s t, SenderInv s → memWf s.mem = true → Active s → runEvent e s = .next t → e ≠ .hardReset →
    (∀ v, e = .hostWrite 0x018 4 v → decode v ≠ .ok .softReset) →
    ∀ i, bufRead t.mem .pbufTx i = bufRead s.mem .pbufTx i
end

