-- ==== Sys2Proof/Laws/Operands.lean ====
section
/-! SUPPORT. Operand fields and register fields as arithmetic on the words they are cut from. -/

namespace Sys2Proof.Machine

/-! ## Fields of ARG0 and ARG1 -/

theorem byteOf_toNat (v : Word) (lo : Nat) : (byteOf v lo).toNat = v.toNat / 2 ^ lo % 256 := by
  simp [byteOf, BitVec.extractLsb'_toNat, Nat.shiftRight_eq_div_pow]

@[simp] theorem arg0Low_toNat (s : State) : (arg0Low s).toNat = s.arg0.toNat % 256 := by
  simp [arg0Low, byteOf_toNat]

@[simp] theorem arg0High_toNat (s : State) : (arg0High s).toNat = s.arg0.toNat / 256 % 256 := by
  simp [arg0High, byteOf_toNat]

@[simp] theorem arg0Half_toNat (s : State) : (arg0Half s).toNat = s.arg0.toNat % 65536 := by
  simp [arg0Half, BitVec.extractLsb'_toNat]

@[simp] theorem arg1Expected_toNat (s : State) : (arg1Expected s).toNat = s.arg1.toNat / 65536 := by
  have := s.arg1.isLt
  simp only [arg1Expected, BitVec.extractLsb'_toNat, Nat.shiftRight_eq_div_pow]
  omega

theorem arg0Low_eq (s : State) : arg0Low s = s.arg0.setWidth 8 := by
  apply BitVec.eq_of_toNat_eq; simp

theorem arg0High_eq (s : State) : arg0High s = (s.arg0 >>> 8).setWidth 8 := by
  apply BitVec.eq_of_toNat_eq; simp [Nat.shiftRight_eq_div_pow]

theorem arg1Buf_eq (s : State) : arg1Buf s = if s.arg1.toNat / 256 % 2 = 1 then .pbufRx else .pbufTx := by
  simp only [arg1Buf, BitVec.getLsbD, Nat.testBit, Nat.shiftRight_eq_div_pow]
  have : (1 &&& s.arg1.toNat / 2 ^ 8) = s.arg1.toNat / 256 % 2 := by rw [Nat.land_comm]; simp [Nat.and_one_is_mod]
  rw [this]
  rcases Nat.mod_two_eq_zero_or_one (s.arg1.toNat / 256) with h | h <;> simp [h]

/-- ARG1's mode field, by its number. -/
theorem arg1Mode_cases (s : State) :
    (s.arg1.toNat % 4 = 0 ∧ arg1Mode s = some .none) ∨ (s.arg1.toNat % 4 = 1 ∧ arg1Mode s = some .evenParity) ∨
      (1 < s.arg1.toNat % 4 ∧ arg1Mode s = none) := by
  have hv : (s.arg1.extractLsb' 0 2 : BitVec 2).toNat = s.arg1.toNat % 4 := by simp [BitVec.extractLsb'_toNat]
  have hlt : s.arg1.toNat % 4 < 4 := Nat.mod_lt _ (by omega)
  unfold arg1Mode
  rw [hv]
  generalize s.arg1.toNat % 4 = m at hlt
  rcases m with _ | _ | _ | _ | m <;> simp_all

/-- IDLE or DONE. -/
@[simp] theorem idleish_true (s : State) : idleish s = true ↔ s.tx.arqState = .idle ∨ s.tx.arqState = .done := by
  unfold idleish; cases s.tx.arqState <;> simp

theorem idleish_false (s : State) : idleish s = false ↔ ¬ (s.tx.arqState = .idle ∨ s.tx.arqState = .done) := by
  rw [← idleish_true, Bool.not_eq_true]

theorem wf_nodes {p : Params} (h : p.wf = true) : 1 ≤ p.nNodes ∧ p.nNodes ≤ 32 := by
  simp only [Params.wf, Params.nodesOk, Bool.and_eq_true, decide_eq_true_eq] at h
  exact h.2

theorem wf_framing {p : Params} (h : p.wf = true) : p.flagByte ≠ p.escByte := by
  simp only [Params.wf, Params.framingOk, Bool.and_eq_true, bne_iff_ne] at h
  exact h.1

/-- `a <= MAX` for an instance inside the spec. -/
theorem inRange_iff {s : State} (h : s.params.wf = true) (a : Byte) : inRange s a = true ↔ a.toNat < s.params.nNodes := by
  have := wf_nodes h
  rw [inRange, decide_eq_true_iff, maxAddress]
  omega

theorem inRange_false_iff {s : State} (h : s.params.wf = true) (a : Byte) :
    inRange s a = false ↔ s.params.nNodes ≤ a.toNat := by
  rw [← Bool.not_eq_true, inRange_iff h]; omega

end Sys2Proof.Machine
end

