-- ==== Sys2Proof/Laws/Framer.lean ====
section
/-! SUPPORT. The frame codec and the checksum bytes: what the scanning loop of Unstuff does with a stuffed string, how long the
results are, and how a built interior ends. -/

namespace Sys2Proof.Machine

/-! ## Unstuff -/

theorem unstuffScan_flag (p : Params) (after) : unstuffScan p (p.flagByte :: after) = some ([], after) := by
  cases after <;> simp [unstuffScan]

theorem unstuffScan_pair (p : Params) (h : p.flagByte ≠ p.escByte) {c} (hc : c = p.flagByte ∨ c = p.escByte) (rest) :
    unstuffScan p (p.escByte :: c :: rest) = (unstuffScan p rest).map fun (out, after) => (c :: out, after) := by
  rw [unstuffScan, if_neg h.symm, if_pos ⟨rfl, hc⟩]

theorem unstuffScan_plain (p : Params) {b} (h1 : b ≠ p.flagByte) (h2 : b ≠ p.escByte) (rest) :
    unstuffScan p (b :: rest) = (unstuffScan p rest).map fun (out, after) => (b :: out, after) := by
  cases rest with
  | nil => simp [unstuffScan, h1]
  | cons c rest => rw [unstuffScan, if_neg h1, if_neg (by simp [h2])]

/-- The scan of a stuffed interior stops at the flag after it and gives the interior back. -/
theorem unstuffScan_stuffed (p : Params) (h : p.flagByte ≠ p.escByte) (after) : ∀ x : List Byte,
    unstuffScan p (x.flatMap (stuffByte p) ++ p.flagByte :: after) = some (x, after)
  | [] => unstuffScan_flag p after
  | b :: x => by
    have ih := unstuffScan_stuffed p h after x
    rw [List.flatMap_cons, stuffByte]
    split
    · rename_i hb
      simp only [List.cons_append, List.nil_append]
      rw [unstuffScan_pair p h hb, ih]; rfl
    · rename_i hb
      push Not at hb
      simp only [List.cons_append, List.nil_append]
      rw [unstuffScan_plain p hb.1 hb.2, ih]; rfl

/-- The scan of a stuffed interior cut short anywhere finds no flag. -/
theorem unstuffScan_cut (p : Params) (h : p.flagByte ≠ p.escByte) : ∀ (x : List Byte) (k : Nat),
    unstuffScan p ((x.flatMap (stuffByte p)).take k) = none
  | [], k => by simp [unstuffScan]
  | b :: x, k => by
    have ih := unstuffScan_cut p h x
    rw [List.flatMap_cons, stuffByte]
    split
    · rename_i hb
      rcases k with _ | _ | k
      · simp [unstuffScan]
      · simp [unstuffScan, h.symm]
      · simp only [List.cons_append, List.nil_append, List.take_succ_cons]
        rw [unstuffScan_pair p h hb, ih]; rfl
    · rename_i hb
      push Not at hb
      rcases k with _ | k
      · simp [unstuffScan]
      · simp only [List.cons_append, List.nil_append, List.take_succ_cons]
        rw [unstuffScan_plain p hb.1 hb.2, ih]; rfl

/-- Each FLAG or ESC byte adds one byte. -/
theorem stuffed_length (p : Params) : ∀ x : List Byte, (x.flatMap (stuffByte p)).length =
    x.length + x.countP (fun b => decide (b = p.flagByte) || decide (b = p.escByte))
  | [] => rfl
  | b :: x => by
    have ih := stuffed_length p x
    rw [List.flatMap_cons, List.length_append, ih, List.countP_cons, stuffByte]
    by_cases hb : b = p.flagByte ∨ b = p.escByte
    · rw [if_pos hb]; simp [hb]; omega
    · rw [if_neg hb]; push Not at hb; simp [hb]; omega

theorem unstuffScan_length (p : Params) : ∀ {r out after},
    unstuffScan p r = some (out, after) → out.length + after.length + 1 ≤ r.length := by
  intro r
  induction r using unstuffScan.induct (p := p) with
  | case1 => intro out after h; simp [unstuffScan] at h
  | case2 => intro out after h; simp [unstuffScan] at h; simp [h.1, h.2]
  | case3 b hb => intro out after h; simp [unstuffScan, hb] at h
  | case4 c rest => intro out after h; simp [unstuffScan] at h; simp [← h.1, ← h.2]
  | case5 b c rest h1 h2 ih =>
    intro out after h
    rw [unstuffScan, if_neg h1, if_pos h2] at h
    cases hs : unstuffScan p rest with
    | none => simp [hs] at h
    | some q =>
      obtain ⟨o, a⟩ := q
      have := ih hs
      simp [hs] at h; rw [← h.1, ← h.2]; simp; omega
  | case6 b c rest h1 h2 ih =>
    intro out after h
    rw [unstuffScan, if_neg h1, if_neg h2] at h
    cases hs : unstuffScan p (c :: rest) with
    | none => simp [hs] at h
    | some q =>
      obtain ⟨o, a⟩ := q
      have := ih hs
      simp [hs] at h; rw [← h.1, ← h.2]; simp at this ⊢; omega

/-- An unstuffed interior is not empty, and at least two bytes shorter than what was received. -/
theorem unstuffFrame_length {p : Params} {r n x} (h : unstuffFrame p r n = some x) :
    1 ≤ x.length ∧ x.length + 2 ≤ n ∧ x.length + 2 ≤ r.length := by
  unfold unstuffFrame at h
  have hl : (r.take n).length ≤ n := List.length_take_le _ _
  have hl2 : (r.take n).length ≤ r.length := List.length_take_le' _ _
  split at h
  · cases h
  · rename_i b rest hr
    rw [hr] at hl hl2
    simp only [List.length_cons] at hl hl2
    split at h
    · split at h
      · rename_i out hs
        have := unstuffScan_length p hs
        split at h
        · cases h
        · rename_i ho
          cases h
          have : 0 < x.length := List.length_pos_iff.2 ho
          simp at *; omega
      · cases h
      · cases h
    · cases h

/-! ## Checksums -/

theorem parityFold_le (d) : parityFold d < 2 := Nat.mod_lt _ (by decide)

theorem ckOf_toNat (a b : Byte) : (ckOf a b).toNat = a.toNat * 256 + b.toNat := by
  unfold ckOf
  rw [BitVec.toNat_append, ← Nat.shiftLeft_add_eq_or_of_lt (BitVec.isLt _), Nat.shiftLeft_eq]

/-- The two checksum bytes put together again. -/
theorem ckOf_ckHi_ckLo (c : Half) : ckOf (ckHi c) (ckLo c) = c := by
  apply BitVec.eq_of_toNat_eq
  have := c.isLt
  rw [ckOf_toNat]; simp [ckHi, ckLo, BitVec.extractLsb'_toNat, Nat.shiftRight_eq_div_pow]
  omega

/-- The checksum bytes of a frame under its mode bit. -/
theorem checksum_bytes (m : Bool) (body : List Byte) :
    [ckHi (checksum (modeOfBit m) body), ckLo (checksum (modeOfBit m) body)] =
      [0x00, if m then BitVec.ofNat 8 (parityFold body) else 0x00] := by
  have := parityFold_le body
  cases m
  · simp [modeOfBit, checksum, ckHi, ckLo]
  · simp only [modeOfBit, checksum, if_true]
    generalize parityFold body = n at *
    interval_cases n <;> rfl

/-! ## Frames -/

theorem frameInterior_length (s cl ch d data) : (frameInterior s cl ch d data).length = 7 + data.length := by
  simp [frameInterior]; omega

/-- A built interior is its body and the checksum of its body. -/
theorem frameInterior_checksum (s cl ch d data) :
   let x := frameInterior s cl ch d data
   let body := x.take (x.length - 2)
   body = [cl, ch, d, s.addr.myHw, BitVec.ofNat 8 data.length] ++ data ∧
   x.getD (x.length - 2) 0 = ckHi (checksum (modeOfBit (ch.getLsbD 4)) body) ∧
   x.getD (x.length - 1) 0 = ckLo (checksum (modeOfBit (ch.getLsbD 4)) body) := by
  intro x body
  have hl : x.length = 7 + data.length := frameInterior_length s cl ch d data
  have hx : x = ([cl, ch, d, s.addr.myHw, BitVec.ofNat 8 data.length] ++ data) ++
      [ckHi (checksum (modeOfBit (ch.getLsbD 4)) ([cl, ch, d, s.addr.myHw, BitVec.ofNat 8 data.length] ++ data)),
       ckLo (checksum (modeOfBit (ch.getLsbD 4)) ([cl, ch, d, s.addr.myHw, BitVec.ofNat 8 data.length] ++ data))] := rfl
  have hb : body = [cl, ch, d, s.addr.myHw, BitVec.ofNat 8 data.length] ++ data := by
    show x.take _ = _
    rw [hl, hx]; apply List.take_left'; simp; omega
  refine ⟨hb, ?_, ?_⟩
  · rw [hb, hl, hx, List.getD_append_right _ _ _ _ (by simp; omega)]
    simp [show 7 + data.length - 2 - (data.length + 1 + 1 + 1 + 1 + 1) = 0 by omega]
  · rw [hb, hl, hx, List.getD_append_right _ _ _ _ (by simp; omega)]
    simp [show 6 + data.length - (data.length + 1 + 1 + 1 + 1 + 1) = 1 by omega]

/-- CONTROL_HIGH as a number. -/
theorem controlHigh_eq (a b c d : Bool) :
    controlHigh a b c d = BitVec.ofNat 8 ((if a then 1 else 0) + (if b then 4 else 0) + (if c then 8 else 0) + (if d then 16 else 0)) := by
  revert a b c d; decide

theorem controlHigh_mode (a b c d : Bool) : (controlHigh a b c d).getLsbD 4 = d := by
  revert a b c d; decide

end Sys2Proof.Machine
end

