-- ==== Sys2Proof/Laws/Memory.lean ====
section
/-! SUPPORT. What the memory operations do: a byte written is read back, every other byte is as before, and the canonical
form is kept. Later proofs cite these and do not unfold the list. -/

namespace Sys2Proof.Machine

/-! ## One byte -/

theorem memRead_below {m : Memory} {lo a : Nat} (h : memSorted lo m = true) (ha : a < lo) :
    memRead m a = memBackground := by
  induction m generalizing lo with
  | nil => rfl
  | cons c m ih =>
    obtain ⟨b, w⟩ := c
    simp only [memSorted, Bool.and_eq_true, decide_eq_true_eq] at h
    rw [memRead, if_neg (by omega)]
    exact ih h.2 (by omega)

theorem memSorted_mono {m : Memory} {lo lo' : Nat} (hle : lo' ≤ lo) (h : memSorted lo m = true) :
    memSorted lo' m = true := by
  cases m with
  | nil => rfl
  | cons c m =>
    simp only [memSorted, Bool.and_eq_true, decide_eq_true_eq] at h ⊢
    exact ⟨⟨by omega, h.1.2⟩, h.2⟩

theorem memSorted_write {m : Memory} {lo a : Nat} {v : Byte} (h : memSorted lo m = true) (ha : lo ≤ a) :
    memSorted lo (memWrite m a v) = true := by
  induction m generalizing lo with
  | nil => by_cases hv : v = memBackground <;> simp [memWrite, memSorted, hv, ha]
  | cons c m ih =>
    obtain ⟨b, w⟩ := c
    have h0 := h
    simp only [memSorted, Bool.and_eq_true, decide_eq_true_eq] at h
    obtain ⟨⟨hb, hw⟩, hm⟩ := h
    rw [memWrite]
    split
    · by_cases hv : v = memBackground
      · simpa [hv] using h0
      · simp only [if_neg hv, memSorted, Bool.and_eq_true, decide_eq_true_eq]
        exact ⟨⟨ha, by simpa using hv⟩, ⟨by omega, hw⟩, hm⟩
    · split
      · subst a
        by_cases hv : v = memBackground
        · simpa [hv] using memSorted_mono (by omega) hm
        · simp [hv, memSorted, hb, hm]
      · simp only [memSorted, Bool.and_eq_true, decide_eq_true_eq]
        exact ⟨⟨hb, hw⟩, ih hm (by omega)⟩

/-- A write keeps the canonical form. -/
theorem memWf_write {m : Memory} (h : memWf m = true) (a : Nat) (v : Byte) : memWf (memWrite m a v) = true :=
  memSorted_write h (Nat.zero_le a)

theorem memRead_memWrite_sorted {m : Memory} {lo : Nat} (h : memSorted lo m = true) (a b : Nat) (v : Byte) :
    memRead (memWrite m a v) b = if b = a then v else memRead m b := by
  induction m generalizing lo with
  | nil => by_cases hv : v = memBackground <;> simp [memWrite, memRead, hv]
  | cons c m ih =>
    obtain ⟨x, w⟩ := c
    simp only [memSorted, Bool.and_eq_true, decide_eq_true_eq] at h
    obtain ⟨⟨hx, hw⟩, hm⟩ := h
    rw [memWrite]
    split
    · by_cases hba : b = a
      · subst b
        by_cases hv : v = memBackground
        · simp only [hv, if_true, memRead]
          rw [if_neg (by omega), memRead_below hm (by omega)]
        · simp [hv, memRead]
      · by_cases hv : v = memBackground <;> simp [hv, memRead, hba]
    · split
      · subst a
        by_cases hba : b = x
        · subst b
          by_cases hv : v = memBackground
          · simpa [hv] using memRead_below hm (by omega)
          · simp [hv, memRead]
        · by_cases hv : v = memBackground <;> simp [hv, memRead, hba]
      · by_cases hbx : b = x
        · subst b
          rw [memRead, if_pos rfl, if_neg (by omega), memRead, if_pos rfl]
        · rw [memRead, if_neg hbx, ih hm, memRead, if_neg hbx]

/-- Reading after writing one byte. -/
theorem memRead_memWrite {m : Memory} (h : memWf m = true) (a b : Nat) (v : Byte) :
    memRead (memWrite m a v) b = if b = a then v else memRead m b :=
  memRead_memWrite_sorted h a b v

theorem memMapped_write {m : Memory} {a : Nat} (h : memMapped m = true) (ha : inWindow a = true) (v : Byte) :
    memMapped (memWrite m a v) = true := by
  induction m with
  | nil => by_cases hv : v = memBackground <;> simp [memWrite, memMapped, hv, ha]
  | cons c m ih =>
    obtain ⟨x, w⟩ := c
    simp only [memMapped, List.all_cons, Bool.and_eq_true] at h ih
    rw [memWrite]
    split
    · by_cases hv : v = memBackground <;> simp [memMapped, hv, h, ha]
    · split
      · by_cases hv : v = memBackground <;> simp [memMapped, hv, h, ha]
      · simpa [memMapped, h.1] using ih h.2

/-- Two canonical memories that read alike are equal. -/
theorem memSorted_ext {m m' : Memory} {lo : Nat} (h : memSorted lo m = true) (h' : memSorted lo m' = true)
    (heq : ∀ a, memRead m a = memRead m' a) : m = m' := by
  induction m generalizing m' lo with
  | nil =>
    cases m' with
    | nil => rfl
    | cons c m' =>
      obtain ⟨b, w⟩ := c
      have := heq b
      simp_all [memSorted, memRead]
  | cons c m ih =>
    obtain ⟨b, w⟩ := c
    cases m' with
    | nil =>
      have := heq b
      simp_all [memSorted, memRead]
    | cons c' m' =>
      obtain ⟨b', w'⟩ := c'
      simp only [memSorted, Bool.and_eq_true, decide_eq_true_eq, bne_iff_ne] at h h'
      have hbb : b = b' := by
        rcases Nat.lt_trichotomy b b' with hlt | heq' | hlt
        · have h1 := heq b
          rw [memRead, if_pos rfl, memRead, if_neg (by omega), memRead_below h'.2 (by omega)] at h1
          exact absurd h1 h.1.2
        · exact heq'
        · have h1 := heq b'
          rw [memRead, if_neg (by omega), memRead_below h.2 (by omega), memRead, if_pos rfl] at h1
          exact absurd h1.symm h'.1.2
      subst b'
      have hww : w = w' := by simpa [memRead] using heq b
      subst w'
      congr 1
      refine ih h.2 h'.2 fun a => ?_
      by_cases hab : a = b
      · subst a
        rw [memRead_below h.2 (by omega), memRead_below h'.2 (by omega)]
      · simpa [memRead, hab] using heq a

/-! ## Strings of bytes -/

theorem memWf_writeBytes {m : Memory} (h : memWf m = true) (a : Nat) (w : List Byte) :
    memWf (memWriteBytes m a w) = true := by
  induction w generalizing m a with
  | nil => exact h
  | cons v w ih => exact ih (memWf_write h a v) (a + 1)

/-- Reading after writing a string of bytes. -/
theorem memRead_memWriteBytes {m : Memory} (h : memWf m = true) (a : Nat) (w : List Byte) (b : Nat) :
    memRead (memWriteBytes m a w) b
      = if a ≤ b ∧ b < a + w.length then w.getD (b - a) memBackground else memRead m b := by
  induction w generalizing m a with
  | nil => simp only [memWriteBytes, List.length_nil]; rw [if_neg (by omega)]
  | cons v w ih =>
    rw [memWriteBytes, ih (memWf_write h a v), memRead_memWrite h]
    by_cases hba : b = a
    · subst b
      rw [if_neg (by omega), if_pos rfl, if_pos (by simp)]
      simp
    · by_cases hin : a + 1 ≤ b ∧ b < a + 1 + w.length
      · rw [if_pos hin, if_pos (by simp only [List.length_cons]; omega)]
        have : b - a = (b - (a + 1)) + 1 := by omega
        rw [this, List.getD_cons_succ]
      · rw [if_neg hin, if_neg hba, if_neg (by simp only [List.length_cons]; omega)]

theorem memMapped_writeBytes {m : Memory} (h : memMapped m = true) (a : Nat) (w : List Byte)
    (ha : ∀ i, i < w.length → inWindow (a + i) = true) : memMapped (memWriteBytes m a w) = true := by
  induction w generalizing m a with
  | nil => exact h
  | cons v w ih =>
    refine ih (memMapped_write h (by simpa using ha 0 (by simp)) v) (a + 1) fun i hi => ?_
    have := ha (i + 1) (by simpa using hi)
    rwa [show a + 1 + i = a + (i + 1) by omega]

/-! ## Buffers -/

theorem inWindow_buf (b : Buf) {i : Nat} (hi : i < bufSize b) : inWindow (bufBase b + i) = true := by
  simp only [inWindow, List.any_eq_true, Bool.and_eq_true, decide_eq_true_eq]
  exact ⟨b, by cases b <;> simp, by omega, by omega⟩

theorem memWf_bufWrite {m : Memory} (h : memWf m = true) (b : Buf) (off : Nat) (w : List Byte) :
    memWf (bufWrite m b off w) = true := memWf_writeBytes h _ _

theorem memMapped_bufWrite {m : Memory} (h : memMapped m = true) (b : Buf) (off : Nat) (w : List Byte) :
    memMapped (bufWrite m b off w) = true := by
  refine memMapped_writeBytes h _ _ fun i hi => ?_
  rw [List.length_take] at hi
  rw [show bufBase b + off + i = bufBase b + (off + i) by omega]
  exact inWindow_buf b (by omega)

/-- The byte at any port offset after a buffer write that fits the buffer. -/
theorem memRead_bufWrite {m : Memory} (h : memWf m = true) (b : Buf) (off : Nat) (w : List Byte)
    (hfit : off + w.length ≤ bufSize b) (a : Nat) :
    memRead (bufWrite m b off w) a
      = if bufBase b + off ≤ a ∧ a < bufBase b + off + w.length
        then w.getD (a - (bufBase b + off)) memBackground else memRead m a := by
  rw [bufWrite, memRead_memWriteBytes h, List.take_of_length_le (by omega)]

/-- A byte of the written buffer. -/
theorem bufRead_bufWrite {m : Memory} (h : memWf m = true) (b : Buf) (off : Nat) (w : List Byte)
    (hfit : off + w.length ≤ bufSize b) (i : Nat) :
    bufRead (bufWrite m b off w) b i
      = if off ≤ i ∧ i < off + w.length then w.getD (i - off) memBackground else bufRead m b i := by
  rw [bufRead, bufRead, memRead_bufWrite h b off w hfit]
  by_cases hin : off ≤ i ∧ i < off + w.length
  · rw [if_pos (show i < bufSize b by omega), if_pos (show _ ∧ _ by omega), if_pos hin]
    congr 1
    omega
  · rw [if_neg hin, if_neg (show ¬ (_ ∧ _) by omega)]

/-- Where two windows do not meet, a write to one leaves the other. -/
theorem bufRead_bufWrite_of_ne {m : Memory} (h : memWf m = true) {b b' : Buf} (hne : b' ≠ b) (off : Nat) (w : List Byte)
    (i : Nat) : bufRead (bufWrite m b off w) b' i = bufRead m b' i := by
  rw [bufRead, bufRead]
  split
  · rename_i hi
    rw [bufWrite, memRead_memWriteBytes h, if_neg]
    rw [List.length_take]
    cases b <;> cases b' <;> simp_all [bufBase, bufSize] <;> omega
  · rfl

@[simp] theorem bufBytes_length (m : Memory) (b : Buf) (off n : Nat) : (bufBytes m b off n).length = n := by
  simp [bufBytes]

theorem bufBytes_getElem (m : Memory) (b : Buf) (off n j : Nat) (hj : j < (bufBytes m b off n).length) :
    (bufBytes m b off n)[j] = bufRead m b (off + j) := by
  simp [bufBytes]

/-- Reading back a string just written. -/
theorem bufBytes_bufWrite {m : Memory} (h : memWf m = true) (b : Buf) (w : List Byte) (hfit : w.length ≤ bufSize b) :
    bufBytes (bufWrite m b 0 w) b 0 w.length = w := by
  refine List.ext_getElem (by simp) fun i h1 h2 => ?_
  rw [bufBytes_getElem, bufRead_bufWrite h b 0 w (by omega), if_pos (by omega)]
  simp [h2]

end Sys2Proof.Machine
end

