-- ==== Sys2Proof/Laws/PerInstr.lean ====
section
/-! SUPPORT. What holds of every command word, one lemma per constructor. -/

namespace Sys2Proof.Laws.CommandWord

/-- The word a host writes for a command has the command's opcode in bits 7:0 and 0 above (30_encoding.md R91, R97), and
it decodes to that command. -/
def Statement (i : Instr) : Prop :=
  opcodeField (encode i) = opcode i ∧ (encode i).extractLsb' 8 24 = 0 ∧ decode (encode i) = .ok i

theorem nop : Statement .nop := ⟨rfl, rfl, rfl⟩

theorem txAlloc : Statement .txAlloc := ⟨rfl, rfl, rfl⟩

theorem txDiscard : Statement .txDiscard := ⟨rfl, rfl, rfl⟩

theorem arqSend : Statement .arqSend := ⟨rfl, rfl, rfl⟩

theorem arqAbort : Statement .arqAbort := ⟨rfl, rfl, rfl⟩

theorem rxRelease : Statement .rxRelease := ⟨rfl, rfl, rfl⟩

theorem cksumGen : Statement .cksumGen := ⟨rfl, rfl, rfl⟩

theorem cksumVerify : Statement .cksumVerify := ⟨rfl, rfl, rfl⟩

theorem stuff : Statement .stuff := ⟨rfl, rfl, rfl⟩

theorem unstuff : Statement .unstuff := ⟨rfl, rfl, rfl⟩

theorem parsePacket : Statement .parsePacket := ⟨rfl, rfl, rfl⟩

theorem notifyPingResponse : Statement .notifyPingResponse := ⟨rfl, rfl, rfl⟩

theorem age : Statement .age := ⟨rfl, rfl, rfl⟩

theorem setOwnSeq : Statement .setOwnSeq := ⟨rfl, rfl, rfl⟩

theorem areNodesLinked : Statement .areNodesLinked := ⟨rfl, rfl, rfl⟩

theorem isDeviceOnline : Statement .isDeviceOnline := ⟨rfl, rfl, rfl⟩

theorem readLsRecord : Statement .readLsRecord := ⟨rfl, rfl, rfl⟩

theorem readNbRecord : Statement .readNbRecord := ⟨rfl, rfl, rfl⟩

theorem softReset : Statement .softReset := ⟨rfl, rfl, rfl⟩

end Sys2Proof.Laws.CommandWord
end

