-- ==== Sys2Proof/Laws/Port.lean ====
section
/-! SUPPORT. The register map, offset by offset, and the bytes of a word. -/

namespace Sys2Proof.Machine

/-- A byte of a window lies where the map says. -/
theorem portTarget_window : ∀ b : Buf, ∀ i, i < bufSize b →
    portTarget (BitVec.ofNat 10 (bufBase b + i)) = .window b i := by
  intro b; cases b <;> decide +kernel

theorem accessOk_window : ∀ b : Buf, ∀ w, 4 * w < bufSize b →
    accessOk (BitVec.ofNat 10 (bufBase b + 4 * w)) 4 = true := by
  intro b w h
  cases b <;> simp [bufSize] at h <;> simp [accessOk, bufBase]

/-- A register lies where the map says. -/
theorem portTarget_reg (r : PortReg) : portTarget (BitVec.ofNat 10 (regOffset r)) = .reg r := by cases r <;> decide

/-! ## Fields of a register word -/

/-- A field is the number it holds, moved up by its place. -/
theorem fieldAt_toNat {w : Nat} (lo : Nat) (x : BitVec w) (h : lo + w ≤ 32) : (fieldAt lo x).toNat = 2 ^ lo * x.toNat := by
  have hx : x.toNat * 2 ^ lo < 2 ^ 32 :=
    calc x.toNat * 2 ^ lo < 2 ^ w * 2 ^ lo := Nat.mul_lt_mul_of_pos_right x.isLt (by positivity)
      _ = 2 ^ (lo + w) := by rw [← pow_add, Nat.add_comm]
      _ ≤ 2 ^ 32 := Nat.pow_le_pow_right (by omega) h
  have hw : x.toNat < 2 ^ 32 := Nat.lt_of_lt_of_le x.isLt (Nat.pow_le_pow_right (by omega) (by omega))
  rw [fieldAt, BitVec.toNat_shiftLeft, BitVec.toNat_setWidth, Nat.mod_eq_of_lt hw, Nat.shiftLeft_eq, Nat.mod_eq_of_lt hx,
    Nat.mul_comm]

/-- A field above everything a word holds so far adds to it. -/
theorem or_fieldAt_toNat {w : Nat} (a : Word) (lo : Nat) (x : BitVec w) (h : lo + w ≤ 32) (ha : a.toNat < 2 ^ lo) :
    (a ||| fieldAt lo x).toNat = a.toNat + 2 ^ lo * x.toNat := by
  rw [BitVec.toNat_or, fieldAt_toNat lo x h, Nat.or_comm, ← Nat.two_pow_add_eq_or_of_lt ha, Nat.add_comm]

/-- The same for one bit. -/
theorem or_bitAt_toNat (a : Word) (i : Nat) (b : Bool) (h : i < 32) (ha : a.toNat < 2 ^ i) :
    (a ||| bitAt i b).toNat = a.toNat + 2 ^ i * b.toNat := by
  rw [bitAt, or_fieldAt_toNat a i _ (by omega) ha, BitVec.toNat_ofBool]

/-- The same for a count that fits its field. -/
theorem or_countAt_toNat (a : Word) (w lo n : Nat) (h : lo + w ≤ 32) (hn : n < 2 ^ w) (ha : a.toNat < 2 ^ lo) :
    (a ||| countAt w lo n).toNat = a.toNat + 2 ^ lo * n := by
  rw [countAt, or_fieldAt_toNat a lo _ h ha, BitVec.toNat_ofNat, Nat.mod_eq_of_lt hn]

theorem or_lt_two_pow {a b : Word} {k : Nat} (h : a.toNat < 2 ^ k) (h' : b.toNat < 2 ^ k) : (a ||| b).toNat < 2 ^ k := by
  rw [BitVec.toNat_or]; exact Nat.or_lt_two_pow h h'

theorem fieldAt_lt {w : Nat} (lo k : Nat) (x : BitVec w) (hk : lo + w ≤ k) (h : lo + w ≤ 32) :
    (fieldAt lo x).toNat < 2 ^ k := by
  rw [fieldAt_toNat _ _ h]
  calc 2 ^ lo * x.toNat < 2 ^ lo * 2 ^ w := Nat.mul_lt_mul_of_pos_left x.isLt (by positivity)
    _ = 2 ^ (lo + w) := by rw [← pow_add]
    _ ≤ 2 ^ k := Nat.pow_le_pow_right (by omega) hk

theorem bitAt_lt (i k : Nat) (b : Bool) (hk : i + 1 ≤ k) (h : i + 1 ≤ 32) : (bitAt i b).toNat < 2 ^ k :=
  fieldAt_lt i k _ hk h

theorem countAt_lt (w lo n k : Nat) (hk : lo + w ≤ k) (h : lo + w ≤ 32) : (countAt w lo n).toNat < 2 ^ k :=
  fieldAt_lt lo k _ hk h

/-- Four bytes side by side. -/
theorem fieldAt_bytes_toNat (a b c d : Byte) : (fieldAt 0 a ||| fieldAt 8 b ||| fieldAt 16 c ||| fieldAt 24 d).toNat =
    a.toNat + 256 * b.toNat + 65536 * c.toNat + 16777216 * d.toNat := by
  have ha := fieldAt_lt 0 8 a (by decide) (by decide)
  have hb := fieldAt_lt 8 16 b (by decide) (by decide)
  have hc := fieldAt_lt 16 24 c (by decide) (by decide)
  have hab := or_lt_two_pow (Nat.lt_of_lt_of_le ha (by decide : 2 ^ 8 ≤ 2 ^ 16)) hb
  have habc := or_lt_two_pow (Nat.lt_of_lt_of_le hab (by decide : 2 ^ 16 ≤ 2 ^ 24)) hc
  rw [or_fieldAt_toNat _ 24 d (by decide) habc, or_fieldAt_toNat _ 16 c (by decide) hab,
    or_fieldAt_toNat _ 8 b (by decide) ha, fieldAt_toNat 0 a (by decide)]
  omega

end Sys2Proof.Machine
end

