-- ==== Sys2Proof/Laws/Receive.lean ====
section
/-! SUPPORT. The receive path: an offered frame is the frame that is processed, and each check is the rule it stands for. -/

namespace Sys2Proof.Machine

/-- A buffer write that fits stores exactly its bytes. -/
theorem stores_bufWrite {m : Memory} (h : memWf m = true) (b off) (w : List Byte) (hf : off + w.length ≤ bufSize b) :
    Stores m (bufWrite m b off w) (bufBase b + off) w := by
  have := memRead_bufWrite h b off w hf
  refine ⟨fun i hi => ?_, fun a ha => ?_⟩
  · rw [this, if_pos (by omega)]; simp [memBackground]
  · rw [this, if_neg (by omega)]

/-- The checksum check is R192. -/
theorem rxVerified_iff (x : List Byte) : rxVerified x = true ↔ ChecksumGood x := by
  unfold rxVerified ChecksumGood
  have h : (frameCk x).toNat = (x.getD (x.length - 2) 0).toNat * 256 + (x.getD (x.length - 1) 0).toNat := by
    exact ckOf_toNat _ _
  have hc : frameCh x = x.getD 1 0 := rfl
  rw [hc]
  cases (x.getD 1 0).getLsbD 4
  · simp [modeOfBit, verify]
  · simp only [modeOfBit, verify, if_true, decide_eq_true_iff, forall_const]
    rw [← h]
    have hp := parityFold_le (x.take (x.length - 2))
    constructor
    · intro hh; rw [hh]; simp [checksum]; omega
    · intro hh; apply BitVec.eq_of_toNat_eq; rw [hh]; simp [checksum]; omega

/-- An offered frame is taken. -/
theorem rxTake_offered {s f} (h : Offered s f) : rxTake s = rxFrame f { s with env.rxOffer := none } := by
  have : rxTakeEnabled s = true := by
    have h1 := h.low; have h2 := h.high
    simp [rxTakeEnabled, h.enabled, ackSlotBusy, h.noAck, h.noFlight, h.offer, frameOk, rxMax, h1, h2]
  rw [rxTake, if_pos this, h.offer]

/-- The latched frame is the one that is unstuffed. -/
theorem rxFrame_eq {s : State} {f} (hm : memWf s.mem = true) (h : f.length ≤ 64) : rxFrame f s =
   match unstuffFrame s.params f f.length with
   | none => dropFrame .unstuffError (rxLatch f s)
   | some x => rxChecks x { rxLatch f s with rxEvent.unstuffedLen := x.length } := by
  have : bufBytes (rxLatch f s).mem .fbufRx 0 f.length = f := bufBytes_bufWrite hm .fbufRx f (by simpa [bufSize] using h)
  simp only [rxFrame, this]
  rfl

/-- The format check is R191. -/
theorem formatOk_iff (x) : formatOk x = true ↔ FormatGood x := by
  simp [formatOk, FormatGood, frameLength, maxFrag, and_assoc]

/-- The address check is R192. -/
theorem rxForMe_iff (x s) : rxForMe x s = true ↔ AddressGood s x := by
  simp [rxForMe, AddressGood, frameDest, bcastAddr]

end Sys2Proof.Machine
end

