-- ==== Sys2Proof/Laws/Records.lean ====
section
/-! SUPPORT. The record files and their masks, and what the parser may change. -/

namespace Sys2Proof.Machine

/-! ## Records -/

/-- Reading a link-state record after one is written. -/
theorem lsGet_lsSet (s : State) (a b : Byte) (r) (h : a.toNat < s.ls.length) :
    lsGet (lsSet s a r) b = if b = a then r else lsGet s b := by
  unfold lsGet lsSet
  split
  · rename_i h1; subst h1; simp [h]
  · rename_i h1
    have : a.toNat ≠ b.toNat := fun h => h1 (BitVec.eq_of_toNat_eq h.symm)
    simp [this]

/-- Reading a neighbour record after one is written. -/
theorem nbGet_nbSet (s : State) (a b : Byte) (r) (h : a.toNat < s.nb.length) :
    nbGet (nbSet s a r) b = if b = a then r else nbGet s b := by
  unfold nbGet nbSet
  split
  · rename_i h1; subst h1; simp [h]
  · rename_i h1
    have : a.toNat ≠ b.toNat := fun h => h1 (BitVec.eq_of_toNat_eq h.symm)
    simp [this]

/-! ## Masks -/

theorem shiftOne_bit (k i : Nat) : ((1#32) <<< k).getLsbD i = (decide (i < 32) && decide (i = k)) := by
  simp only [BitVec.getLsbD_shiftLeft, BitVec.getLsbD_one]
  by_cases h : i < 32 <;> by_cases h2 : i = k <;> by_cases h3 : i < k <;> simp_all <;> omega

theorem maskSet_bit (m : Word) (k i : Nat) (hk : k < 32) : (maskSet m k).getLsbD i = (m.getLsbD i || decide (i = k)) := by
  rw [maskSet, BitVec.getLsbD_or, shiftOne_bit]
  by_cases h : i = k
  · subst h; simp [hk]
  · simp [h]

theorem maskClear_bit (m : Word) (k i : Nat) : (maskClear m k).getLsbD i = (m.getLsbD i && !decide (i = k)) := by
  rw [maskClear, BitVec.getLsbD_and, BitVec.getLsbD_not, shiftOne_bit]
  by_cases h32 : i < 32
  · simp [h32]
  · rw [BitVec.getLsbD_of_ge m i (by omega)]; rfl

theorem listMask_foldl (s : State) (hw : s.params.wf = true) : ∀ (list : List Byte) (m : Word) (i : Nat),
    (list.foldl (fun m e => if inRange s e then maskSet m e.toNat else m) m).getLsbD i = true ↔
      m.getLsbD i = true ∨ (i < s.params.nNodes ∧ ∃ e ∈ list, e.toNat = i)
  | [], m, i => by simp
  | e :: list, m, i => by
    have hn := wf_nodes hw
    rw [List.foldl_cons, listMask_foldl s hw list]
    by_cases h : inRange s e = true
    · rw [if_pos h, maskSet_bit _ _ _ (by have := (inRange_iff hw e).1 h; omega)]
      have := (inRange_iff hw e).1 h
      simp only [Bool.or_eq_true, decide_eq_true_eq, List.mem_cons, exists_eq_or_imp]
      constructor
      · rintro ((h1 | h1) | ⟨h1, h2⟩)
        · exact .inl h1
        · exact .inr ⟨by omega, .inl h1.symm⟩
        · exact .inr ⟨h1, .inr h2⟩
      · rintro (h1 | ⟨h1, h2 | h2⟩)
        · exact .inl (.inl h1)
        · exact .inl (.inr h2.symm)
        · exact .inr ⟨h1, h2⟩
    · rw [if_neg h]
      have : ¬ e.toNat < s.params.nNodes := fun hh => h ((inRange_iff hw e).2 hh)
      simp only [List.mem_cons, exists_eq_or_imp]
      constructor
      · rintro (h1 | ⟨h1, h2⟩)
        · exact .inl h1
        · exact .inr ⟨h1, .inr h2⟩
      · rintro (h1 | ⟨h1, h2 | h2⟩)
        · exact .inl h1
        · omega
        · exact .inr ⟨h1, h2⟩

/-- The mask of a node list has exactly the bits of the listed addresses in range. -/
theorem listMask_bit (s : State) (hw : s.params.wf = true) (list i) :
    (listMask s list).getLsbD i = true ↔ i < s.params.nNodes ∧ ∃ e ∈ list, e.toNat = i := by
  rw [listMask, listMask_foldl s hw]; simp

/-! ## Frames -/

/-- NotifyLinkState changes link-state records and TOPO_CHANGED only. -/
theorem notifyLinkState_frame (a b l s) : (notifyLinkState a b l s).2 =
    { s with
      ls := (notifyLinkState a b l s).2.ls
      flags.topoChanged := (notifyLinkState a b l s).2.flags.topoChanged } := by
  simp only [notifyLinkState, acceptLinkState]
  split_ifs <;> rfl

/-- NotifyPingResponse changes records and TOPO_CHANGED only. -/
theorem notifyPingResponse_frame (a b s) : (notifyPingResponse a b s).2 =
    { s with
      ls := (notifyPingResponse a b s).2.ls
      nb := (notifyPingResponse a b s).2.nb
      flags.topoChanged := (notifyPingResponse a b s).2.flags.topoChanged } := by
  simp only [notifyPingResponse]
  split_ifs <;> rfl

theorem dispatchPacket_frame (p ph s) : (dispatchPacket p ph s).2 =
    { s with
      ls := (dispatchPacket p ph s).2.ls
      nb := (dispatchPacket p ph s).2.nb
      flags.topoChanged := (dispatchPacket p ph s).2.flags.topoChanged } := by
  unfold dispatchPacket
  split
  · have := notifyLinkState_frame (pktByte p 2) (pktByte p 3) (lsList p) s
    generalize notifyLinkState (pktByte p 2) (pktByte p 3) (lsList p) s = q at *
    obtain ⟨o, t⟩ := q
    simp only at this ⊢
    rw [this]
  · have := notifyPingResponse_frame ph (pktByte p 2) s
    generalize notifyPingResponse ph (pktByte p 2) s = q at *
    obtain ⟨o, t⟩ := q
    simp only at this ⊢
    rw [this]
  · rfl

theorem parseRecords_frame (p ph s) : (parseRecords p ph s).2 =
    { s with
      ls := (parseRecords p ph s).2.ls
      nb := (parseRecords p ph s).2.nb
      flags.topoChanged := (parseRecords p ph s).2.flags.topoChanged } := by
  unfold parseRecords
  split
  · exact dispatchPacket_frame p ph s
  · rfl

/-- The parser changes records, TOPO_CHANGED and PKT_STATUS only. -/
theorem parsePacket_frame (p ph s) : (parsePacket p ph s).2 =
    { s with
      ls := (parsePacket p ph s).2.ls
      nb := (parsePacket p ph s).2.nb
      flags.topoChanged := (parsePacket p ph s).2.flags.topoChanged
      pktStatus := (parsePacket p ph s).2.pktStatus } := by
  have := parseRecords_frame p ph s
  unfold parsePacket
  generalize parseRecords p ph s = q at *
  obtain ⟨o, t⟩ := q
  simp only at this ⊢
  rw [this]

end Sys2Proof.Machine
end

