-- ==== Sys2Proof/Laws/State.lean ====
section
/-! SUPPORT. One lemma per field for each named update of the state, so that no later proof unfolds the update. -/

namespace Sys2Proof.Machine

/-! ## writeBuf -/

section

variable (s : State) (b : Buf) (off : Nat) (w : List Byte)

@[simp] theorem writeBuf_params : (writeBuf s b off w).params = s.params := rfl
@[simp] theorem writeBuf_ctrl : (writeBuf s b off w).ctrl = s.ctrl := rfl
@[simp] theorem writeBuf_addr : (writeBuf s b off w).addr = s.addr := rfl
@[simp] theorem writeBuf_flags : (writeBuf s b off w).flags = s.flags := rfl
@[simp] theorem writeBuf_irqEn : (writeBuf s b off w).irqEn = s.irqEn := rfl
@[simp] theorem writeBuf_arg0 : (writeBuf s b off w).arg0 = s.arg0 := rfl
@[simp] theorem writeBuf_arg1 : (writeBuf s b off w).arg1 = s.arg1 := rfl
@[simp] theorem writeBuf_result : (writeBuf s b off w).result = s.result := rfl
@[simp] theorem writeBuf_cmdStatus : (writeBuf s b off w).cmdStatus = s.cmdStatus := rfl
@[simp] theorem writeBuf_txResult : (writeBuf s b off w).txResult = s.txResult := rfl
@[simp] theorem writeBuf_arqCfg : (writeBuf s b off w).arqCfg = s.arqCfg := rfl
@[simp] theorem writeBuf_ttlCfg : (writeBuf s b off w).ttlCfg = s.ttlCfg := rfl
@[simp] theorem writeBuf_rxInfo : (writeBuf s b off w).rxInfo = s.rxInfo := rfl
@[simp] theorem writeBuf_rxEvent : (writeBuf s b off w).rxEvent = s.rxEvent := rfl
@[simp] theorem writeBuf_pktStatus : (writeBuf s b off w).pktStatus = s.pktStatus := rfl
@[simp] theorem writeBuf_mask : (writeBuf s b off w).mask = s.mask := rfl
@[simp] theorem writeBuf_counters : (writeBuf s b off w).counters = s.counters := rfl
@[simp] theorem writeBuf_tx : (writeBuf s b off w).tx = s.tx := rfl
@[simp] theorem writeBuf_port : (writeBuf s b off w).port = s.port := rfl
@[simp] theorem writeBuf_ack : (writeBuf s b off w).ack = s.ack := rfl
@[simp] theorem writeBuf_rx : (writeBuf s b off w).rx = s.rx := rfl
@[simp] theorem writeBuf_mem : (writeBuf s b off w).mem = bufWrite s.mem b off w := rfl
@[simp] theorem writeBuf_ls : (writeBuf s b off w).ls = s.ls := rfl
@[simp] theorem writeBuf_nb : (writeBuf s b off w).nb = s.nb := rfl
@[simp] theorem writeBuf_env : (writeBuf s b off w).env = s.env := rfl

end

/-! ## lsSet -/

section

variable (s : State) (a : Byte) (r : LsRecord)

@[simp] theorem lsSet_params : (lsSet s a r).params = s.params := rfl
@[simp] theorem lsSet_ctrl : (lsSet s a r).ctrl = s.ctrl := rfl
@[simp] theorem lsSet_addr : (lsSet s a r).addr = s.addr := rfl
@[simp] theorem lsSet_flags : (lsSet s a r).flags = s.flags := rfl
@[simp] theorem lsSet_irqEn : (lsSet s a r).irqEn = s.irqEn := rfl
@[simp] theorem lsSet_arg0 : (lsSet s a r).arg0 = s.arg0 := rfl
@[simp] theorem lsSet_arg1 : (lsSet s a r).arg1 = s.arg1 := rfl
@[simp] theorem lsSet_result : (lsSet s a r).result = s.result := rfl
@[simp] theorem lsSet_cmdStatus : (lsSet s a r).cmdStatus = s.cmdStatus := rfl
@[simp] theorem lsSet_txResult : (lsSet s a r).txResult = s.txResult := rfl
@[simp] theorem lsSet_arqCfg : (lsSet s a r).arqCfg = s.arqCfg := rfl
@[simp] theorem lsSet_ttlCfg : (lsSet s a r).ttlCfg = s.ttlCfg := rfl
@[simp] theorem lsSet_rxInfo : (lsSet s a r).rxInfo = s.rxInfo := rfl
@[simp] theorem lsSet_rxEvent : (lsSet s a r).rxEvent = s.rxEvent := rfl
@[simp] theorem lsSet_pktStatus : (lsSet s a r).pktStatus = s.pktStatus := rfl
@[simp] theorem lsSet_mask : (lsSet s a r).mask = s.mask := rfl
@[simp] theorem lsSet_counters : (lsSet s a r).counters = s.counters := rfl
@[simp] theorem lsSet_tx : (lsSet s a r).tx = s.tx := rfl
@[simp] theorem lsSet_port : (lsSet s a r).port = s.port := rfl
@[simp] theorem lsSet_ack : (lsSet s a r).ack = s.ack := rfl
@[simp] theorem lsSet_rx : (lsSet s a r).rx = s.rx := rfl
@[simp] theorem lsSet_mem : (lsSet s a r).mem = s.mem := rfl
@[simp] theorem lsSet_ls : (lsSet s a r).ls = s.ls.set a.toNat r := rfl
@[simp] theorem lsSet_nb : (lsSet s a r).nb = s.nb := rfl
@[simp] theorem lsSet_env : (lsSet s a r).env = s.env := rfl

end

/-! ## nbSet -/

section

variable (s : State) (a : Byte) (r : NbRecord)

@[simp] theorem nbSet_params : (nbSet s a r).params = s.params := rfl
@[simp] theorem nbSet_ctrl : (nbSet s a r).ctrl = s.ctrl := rfl
@[simp] theorem nbSet_addr : (nbSet s a r).addr = s.addr := rfl
@[simp] theorem nbSet_flags : (nbSet s a r).flags = s.flags := rfl
@[simp] theorem nbSet_irqEn : (nbSet s a r).irqEn = s.irqEn := rfl
@[simp] theorem nbSet_arg0 : (nbSet s a r).arg0 = s.arg0 := rfl
@[simp] theorem nbSet_arg1 : (nbSet s a r).arg1 = s.arg1 := rfl
@[simp] theorem nbSet_result : (nbSet s a r).result = s.result := rfl
@[simp] theorem nbSet_cmdStatus : (nbSet s a r).cmdStatus = s.cmdStatus := rfl
@[simp] theorem nbSet_txResult : (nbSet s a r).txResult = s.txResult := rfl
@[simp] theorem nbSet_arqCfg : (nbSet s a r).arqCfg = s.arqCfg := rfl
@[simp] theorem nbSet_ttlCfg : (nbSet s a r).ttlCfg = s.ttlCfg := rfl
@[simp] theorem nbSet_rxInfo : (nbSet s a r).rxInfo = s.rxInfo := rfl
@[simp] theorem nbSet_rxEvent : (nbSet s a r).rxEvent = s.rxEvent := rfl
@[simp] theorem nbSet_pktStatus : (nbSet s a r).pktStatus = s.pktStatus := rfl
@[simp] theorem nbSet_mask : (nbSet s a r).mask = s.mask := rfl
@[simp] theorem nbSet_counters : (nbSet s a r).counters = s.counters := rfl
@[simp] theorem nbSet_tx : (nbSet s a r).tx = s.tx := rfl
@[simp] theorem nbSet_port : (nbSet s a r).port = s.port := rfl
@[simp] theorem nbSet_ack : (nbSet s a r).ack = s.ack := rfl
@[simp] theorem nbSet_rx : (nbSet s a r).rx = s.rx := rfl
@[simp] theorem nbSet_mem : (nbSet s a r).mem = s.mem := rfl
@[simp] theorem nbSet_ls : (nbSet s a r).ls = s.ls := rfl
@[simp] theorem nbSet_nb : (nbSet s a r).nb = s.nb.set a.toNat r := rfl
@[simp] theorem nbSet_env : (nbSet s a r).env = s.env := rfl

end

/-! ## setOwnMask -/

section

variable (m : Word) (s : State)

@[simp] theorem setOwnMask_params : (setOwnMask m s).params = s.params := rfl
@[simp] theorem setOwnMask_ctrl : (setOwnMask m s).ctrl = s.ctrl := rfl
@[simp] theorem setOwnMask_addr : (setOwnMask m s).addr = s.addr := rfl
@[simp] theorem setOwnMask_flags : (setOwnMask m s).flags = s.flags := rfl
@[simp] theorem setOwnMask_irqEn : (setOwnMask m s).irqEn = s.irqEn := rfl
@[simp] theorem setOwnMask_arg0 : (setOwnMask m s).arg0 = s.arg0 := rfl
@[simp] theorem setOwnMask_arg1 : (setOwnMask m s).arg1 = s.arg1 := rfl
@[simp] theorem setOwnMask_result : (setOwnMask m s).result = s.result := rfl
@[simp] theorem setOwnMask_cmdStatus : (setOwnMask m s).cmdStatus = s.cmdStatus := rfl
@[simp] theorem setOwnMask_txResult : (setOwnMask m s).txResult = s.txResult := rfl
@[simp] theorem setOwnMask_arqCfg : (setOwnMask m s).arqCfg = s.arqCfg := rfl
@[simp] theorem setOwnMask_ttlCfg : (setOwnMask m s).ttlCfg = s.ttlCfg := rfl
@[simp] theorem setOwnMask_rxInfo : (setOwnMask m s).rxInfo = s.rxInfo := rfl
@[simp] theorem setOwnMask_rxEvent : (setOwnMask m s).rxEvent = s.rxEvent := rfl
@[simp] theorem setOwnMask_pktStatus : (setOwnMask m s).pktStatus = s.pktStatus := rfl
@[simp] theorem setOwnMask_mask : (setOwnMask m s).mask = s.mask := rfl
@[simp] theorem setOwnMask_counters : (setOwnMask m s).counters = s.counters := rfl
@[simp] theorem setOwnMask_tx : (setOwnMask m s).tx = s.tx := rfl
@[simp] theorem setOwnMask_port : (setOwnMask m s).port = s.port := rfl
@[simp] theorem setOwnMask_ack : (setOwnMask m s).ack = s.ack := rfl
@[simp] theorem setOwnMask_rx : (setOwnMask m s).rx = s.rx := rfl
@[simp] theorem setOwnMask_mem : (setOwnMask m s).mem = s.mem := rfl
@[simp] theorem setOwnMask_ls : (setOwnMask m s).ls = s.ls.set (own s).toNat { lsGet s (own s) with mask := m } := rfl
@[simp] theorem setOwnMask_nb : (setOwnMask m s).nb = s.nb := rfl
@[simp] theorem setOwnMask_env : (setOwnMask m s).env = s.env := rfl

end

/-! ## raiseAccessErr -/

section

variable (s : State)

@[simp] theorem raiseAccessErr_params : (raiseAccessErr s).params = s.params := rfl
@[simp] theorem raiseAccessErr_ctrl : (raiseAccessErr s).ctrl = s.ctrl := rfl
@[simp] theorem raiseAccessErr_addr : (raiseAccessErr s).addr = s.addr := rfl
@[simp] theorem raiseAccessErr_flags : (raiseAccessErr s).flags = { s.flags with accessErr := true } := rfl
@[simp] theorem raiseAccessErr_irqEn : (raiseAccessErr s).irqEn = s.irqEn := rfl
@[simp] theorem raiseAccessErr_arg0 : (raiseAccessErr s).arg0 = s.arg0 := rfl
@[simp] theorem raiseAccessErr_arg1 : (raiseAccessErr s).arg1 = s.arg1 := rfl
@[simp] theorem raiseAccessErr_result : (raiseAccessErr s).result = s.result := rfl
@[simp] theorem raiseAccessErr_cmdStatus : (raiseAccessErr s).cmdStatus = s.cmdStatus := rfl
@[simp] theorem raiseAccessErr_txResult : (raiseAccessErr s).txResult = s.txResult := rfl
@[simp] theorem raiseAccessErr_arqCfg : (raiseAccessErr s).arqCfg = s.arqCfg := rfl
@[simp] theorem raiseAccessErr_ttlCfg : (raiseAccessErr s).ttlCfg = s.ttlCfg := rfl
@[simp] theorem raiseAccessErr_rxInfo : (raiseAccessErr s).rxInfo = s.rxInfo := rfl
@[simp] theorem raiseAccessErr_rxEvent : (raiseAccessErr s).rxEvent = s.rxEvent := rfl
@[simp] theorem raiseAccessErr_pktStatus : (raiseAccessErr s).pktStatus = s.pktStatus := rfl
@[simp] theorem raiseAccessErr_mask : (raiseAccessErr s).mask = s.mask := rfl
@[simp] theorem raiseAccessErr_counters : (raiseAccessErr s).counters = s.counters := rfl
@[simp] theorem raiseAccessErr_tx : (raiseAccessErr s).tx = s.tx := rfl
@[simp] theorem raiseAccessErr_port : (raiseAccessErr s).port = s.port := rfl
@[simp] theorem raiseAccessErr_ack : (raiseAccessErr s).ack = s.ack := rfl
@[simp] theorem raiseAccessErr_rx : (raiseAccessErr s).rx = s.rx := rfl
@[simp] theorem raiseAccessErr_mem : (raiseAccessErr s).mem = s.mem := rfl
@[simp] theorem raiseAccessErr_ls : (raiseAccessErr s).ls = s.ls := rfl
@[simp] theorem raiseAccessErr_nb : (raiseAccessErr s).nb = s.nb := rfl
@[simp] theorem raiseAccessErr_env : (raiseAccessErr s).env = s.env := rfl

end

/-! ## raiseTopo -/

section

variable (topo : Bool) (s : State)

@[simp] theorem raiseTopo_params : (raiseTopo topo s).params = s.params := rfl
@[simp] theorem raiseTopo_ctrl : (raiseTopo topo s).ctrl = s.ctrl := rfl
@[simp] theorem raiseTopo_addr : (raiseTopo topo s).addr = s.addr := rfl
@[simp] theorem raiseTopo_flags : (raiseTopo topo s).flags
    = { s.flags with topoChanged := s.flags.topoChanged || topo } := rfl
@[simp] theorem raiseTopo_irqEn : (raiseTopo topo s).irqEn = s.irqEn := rfl
@[simp] theorem raiseTopo_arg0 : (raiseTopo topo s).arg0 = s.arg0 := rfl
@[simp] theorem raiseTopo_arg1 : (raiseTopo topo s).arg1 = s.arg1 := rfl
@[simp] theorem raiseTopo_result : (raiseTopo topo s).result = s.result := rfl
@[simp] theorem raiseTopo_cmdStatus : (raiseTopo topo s).cmdStatus = s.cmdStatus := rfl
@[simp] theorem raiseTopo_txResult : (raiseTopo topo s).txResult = s.txResult := rfl
@[simp] theorem raiseTopo_arqCfg : (raiseTopo topo s).arqCfg = s.arqCfg := rfl
@[simp] theorem raiseTopo_ttlCfg : (raiseTopo topo s).ttlCfg = s.ttlCfg := rfl
@[simp] theorem raiseTopo_rxInfo : (raiseTopo topo s).rxInfo = s.rxInfo := rfl
@[simp] theorem raiseTopo_rxEvent : (raiseTopo topo s).rxEvent = s.rxEvent := rfl
@[simp] theorem raiseTopo_pktStatus : (raiseTopo topo s).pktStatus = s.pktStatus := rfl
@[simp] theorem raiseTopo_mask : (raiseTopo topo s).mask = s.mask := rfl
@[simp] theorem raiseTopo_counters : (raiseTopo topo s).counters = s.counters := rfl
@[simp] theorem raiseTopo_tx : (raiseTopo topo s).tx = s.tx := rfl
@[simp] theorem raiseTopo_port : (raiseTopo topo s).port = s.port := rfl
@[simp] theorem raiseTopo_ack : (raiseTopo topo s).ack = s.ack := rfl
@[simp] theorem raiseTopo_rx : (raiseTopo topo s).rx = s.rx := rfl
@[simp] theorem raiseTopo_mem : (raiseTopo topo s).mem = s.mem := rfl
@[simp] theorem raiseTopo_ls : (raiseTopo topo s).ls = s.ls := rfl
@[simp] theorem raiseTopo_nb : (raiseTopo topo s).nb = s.nb := rfl
@[simp] theorem raiseTopo_env : (raiseTopo topo s).env = s.env := rfl

end

/-! ## endSend -/

section

variable (code : TxCode) (s : State)

@[simp] theorem endSend_params : (endSend code s).params = s.params := rfl
@[simp] theorem endSend_ctrl : (endSend code s).ctrl = s.ctrl := rfl
@[simp] theorem endSend_addr : (endSend code s).addr = s.addr := rfl
@[simp] theorem endSend_flags : (endSend code s).flags = { s.flags with txDone := true } := rfl
@[simp] theorem endSend_irqEn : (endSend code s).irqEn = s.irqEn := rfl
@[simp] theorem endSend_arg0 : (endSend code s).arg0 = s.arg0 := rfl
@[simp] theorem endSend_arg1 : (endSend code s).arg1 = s.arg1 := rfl
@[simp] theorem endSend_result : (endSend code s).result = s.result := rfl
@[simp] theorem endSend_cmdStatus : (endSend code s).cmdStatus = s.cmdStatus := rfl
@[simp] theorem endSend_txResult : (endSend code s).txResult
    = { code := code, fragsDone := s.tx.fragsDone, nfrag := s.tx.nfrag } := rfl
@[simp] theorem endSend_arqCfg : (endSend code s).arqCfg = s.arqCfg := rfl
@[simp] theorem endSend_ttlCfg : (endSend code s).ttlCfg = s.ttlCfg := rfl
@[simp] theorem endSend_rxInfo : (endSend code s).rxInfo = s.rxInfo := rfl
@[simp] theorem endSend_rxEvent : (endSend code s).rxEvent = s.rxEvent := rfl
@[simp] theorem endSend_pktStatus : (endSend code s).pktStatus = s.pktStatus := rfl
@[simp] theorem endSend_mask : (endSend code s).mask = s.mask := rfl
@[simp] theorem endSend_counters : (endSend code s).counters = s.counters := rfl
@[simp] theorem endSend_tx : (endSend code s).tx = { s.tx with arqState := .done } := rfl
@[simp] theorem endSend_port : (endSend code s).port = { s.port with abortPending := false } := rfl
@[simp] theorem endSend_ack : (endSend code s).ack = s.ack := rfl
@[simp] theorem endSend_rx : (endSend code s).rx = s.rx := rfl
@[simp] theorem endSend_mem : (endSend code s).mem = s.mem := rfl
@[simp] theorem endSend_ls : (endSend code s).ls = s.ls := rfl
@[simp] theorem endSend_nb : (endSend code s).nb = s.nb := rfl
@[simp] theorem endSend_env : (endSend code s).env = s.env := rfl

end

/-! ## buildFragment -/

section

variable (s : State)

@[simp] theorem buildFragment_params : (buildFragment s).params = s.params := rfl
@[simp] theorem buildFragment_ctrl : (buildFragment s).ctrl = s.ctrl := rfl
@[simp] theorem buildFragment_addr : (buildFragment s).addr = s.addr := rfl
@[simp] theorem buildFragment_flags : (buildFragment s).flags = s.flags := rfl
@[simp] theorem buildFragment_irqEn : (buildFragment s).irqEn = s.irqEn := rfl
@[simp] theorem buildFragment_arg0 : (buildFragment s).arg0 = s.arg0 := rfl
@[simp] theorem buildFragment_arg1 : (buildFragment s).arg1 = s.arg1 := rfl
@[simp] theorem buildFragment_result : (buildFragment s).result = s.result := rfl
@[simp] theorem buildFragment_cmdStatus : (buildFragment s).cmdStatus = s.cmdStatus := rfl
@[simp] theorem buildFragment_txResult : (buildFragment s).txResult = s.txResult := rfl
@[simp] theorem buildFragment_arqCfg : (buildFragment s).arqCfg = s.arqCfg := rfl
@[simp] theorem buildFragment_ttlCfg : (buildFragment s).ttlCfg = s.ttlCfg := rfl
@[simp] theorem buildFragment_rxInfo : (buildFragment s).rxInfo = s.rxInfo := rfl
@[simp] theorem buildFragment_rxEvent : (buildFragment s).rxEvent = s.rxEvent := rfl
@[simp] theorem buildFragment_pktStatus : (buildFragment s).pktStatus = s.pktStatus := rfl
@[simp] theorem buildFragment_mask : (buildFragment s).mask = s.mask := rfl
@[simp] theorem buildFragment_counters : (buildFragment s).counters = s.counters := rfl
@[simp] theorem buildFragment_tx : (buildFragment s).tx = s.tx := rfl
@[simp] theorem buildFragment_port : (buildFragment s).port
    = { s.port with fbufTxLen := (dataFrame s).length, dataPending := true } := rfl
@[simp] theorem buildFragment_ack : (buildFragment s).ack = { s.ack with latched := false } := rfl
@[simp] theorem buildFragment_rx : (buildFragment s).rx = s.rx := rfl
@[simp] theorem buildFragment_mem : (buildFragment s).mem = bufWrite s.mem .fbufTx 0 (dataFrame s) := rfl
@[simp] theorem buildFragment_ls : (buildFragment s).ls = s.ls := rfl
@[simp] theorem buildFragment_nb : (buildFragment s).nb = s.nb := rfl
@[simp] theorem buildFragment_env : (buildFragment s).env = s.env := rfl

end

/-! ## queueAck -/

section

variable (d : Byte) (sq : Bool) (s : State)

@[simp] theorem queueAck_params : (queueAck d sq s).params = s.params := rfl
@[simp] theorem queueAck_ctrl : (queueAck d sq s).ctrl = s.ctrl := rfl
@[simp] theorem queueAck_addr : (queueAck d sq s).addr = s.addr := rfl
@[simp] theorem queueAck_flags : (queueAck d sq s).flags = s.flags := rfl
@[simp] theorem queueAck_irqEn : (queueAck d sq s).irqEn = s.irqEn := rfl
@[simp] theorem queueAck_arg0 : (queueAck d sq s).arg0 = s.arg0 := rfl
@[simp] theorem queueAck_arg1 : (queueAck d sq s).arg1 = s.arg1 := rfl
@[simp] theorem queueAck_result : (queueAck d sq s).result = s.result := rfl
@[simp] theorem queueAck_cmdStatus : (queueAck d sq s).cmdStatus = s.cmdStatus := rfl
@[simp] theorem queueAck_txResult : (queueAck d sq s).txResult = s.txResult := rfl
@[simp] theorem queueAck_arqCfg : (queueAck d sq s).arqCfg = s.arqCfg := rfl
@[simp] theorem queueAck_ttlCfg : (queueAck d sq s).ttlCfg = s.ttlCfg := rfl
@[simp] theorem queueAck_rxInfo : (queueAck d sq s).rxInfo = s.rxInfo := rfl
@[simp] theorem queueAck_rxEvent : (queueAck d sq s).rxEvent = s.rxEvent := rfl
@[simp] theorem queueAck_pktStatus : (queueAck d sq s).pktStatus = s.pktStatus := rfl
@[simp] theorem queueAck_mask : (queueAck d sq s).mask = s.mask := rfl
@[simp] theorem queueAck_counters : (queueAck d sq s).counters = s.counters := rfl
@[simp] theorem queueAck_tx : (queueAck d sq s).tx = s.tx := rfl
@[simp] theorem queueAck_port : (queueAck d sq s).port
    = { s.port with abufLen := (ackFrame s d sq).length, ackPending := true } := rfl
@[simp] theorem queueAck_ack : (queueAck d sq s).ack = s.ack := rfl
@[simp] theorem queueAck_rx : (queueAck d sq s).rx = s.rx := rfl
@[simp] theorem queueAck_mem : (queueAck d sq s).mem = bufWrite s.mem .abuf 0 (ackFrame s d sq) := rfl
@[simp] theorem queueAck_ls : (queueAck d sq s).ls = s.ls := rfl
@[simp] theorem queueAck_nb : (queueAck d sq s).nb = s.nb := rfl
@[simp] theorem queueAck_env : (queueAck d sq s).env = s.env := rfl

end

/-! ## dropFrame -/

section

variable (ev : RxCode) (s : State)

@[simp] theorem dropFrame_params : (dropFrame ev s).params = s.params := rfl
@[simp] theorem dropFrame_ctrl : (dropFrame ev s).ctrl = s.ctrl := rfl
@[simp] theorem dropFrame_addr : (dropFrame ev s).addr = s.addr := rfl
@[simp] theorem dropFrame_flags : (dropFrame ev s).flags
    = { s.flags with rxError := s.flags.rxError || decide (ev ≠ .addressMismatch) } := rfl
@[simp] theorem dropFrame_irqEn : (dropFrame ev s).irqEn = s.irqEn := rfl
@[simp] theorem dropFrame_arg0 : (dropFrame ev s).arg0 = s.arg0 := rfl
@[simp] theorem dropFrame_arg1 : (dropFrame ev s).arg1 = s.arg1 := rfl
@[simp] theorem dropFrame_result : (dropFrame ev s).result = s.result := rfl
@[simp] theorem dropFrame_cmdStatus : (dropFrame ev s).cmdStatus = s.cmdStatus := rfl
@[simp] theorem dropFrame_txResult : (dropFrame ev s).txResult = s.txResult := rfl
@[simp] theorem dropFrame_arqCfg : (dropFrame ev s).arqCfg = s.arqCfg := rfl
@[simp] theorem dropFrame_ttlCfg : (dropFrame ev s).ttlCfg = s.ttlCfg := rfl
@[simp] theorem dropFrame_rxInfo : (dropFrame ev s).rxInfo = s.rxInfo := rfl
@[simp] theorem dropFrame_rxEvent : (dropFrame ev s).rxEvent = { s.rxEvent with event := ev } := rfl
@[simp] theorem dropFrame_pktStatus : (dropFrame ev s).pktStatus = s.pktStatus := rfl
@[simp] theorem dropFrame_mask : (dropFrame ev s).mask = s.mask := rfl
@[simp] theorem dropFrame_counters : (dropFrame ev s).counters
    = { s.counters with rxDrops := s.counters.rxDrops + 1 } := rfl
@[simp] theorem dropFrame_tx : (dropFrame ev s).tx = s.tx := rfl
@[simp] theorem dropFrame_port : (dropFrame ev s).port = s.port := rfl
@[simp] theorem dropFrame_ack : (dropFrame ev s).ack = s.ack := rfl
@[simp] theorem dropFrame_rx : (dropFrame ev s).rx = s.rx := rfl
@[simp] theorem dropFrame_mem : (dropFrame ev s).mem = s.mem := rfl
@[simp] theorem dropFrame_ls : (dropFrame ev s).ls = s.ls := rfl
@[simp] theorem dropFrame_nb : (dropFrame ev s).nb = s.nb := rfl
@[simp] theorem dropFrame_env : (dropFrame ev s).env = s.env := rfl

end

/-! ## How a command ends -/

@[simp] theorem finishOk_next (i : Instr) (s t : State) :
    finishOk i s = .next t ↔ t = { s with cmdStatus := { code := .ok, op := opcode i } } := by
  simp [finishOk, complete, eq_comm]

@[simp] theorem raiseCmdError_next (i : Instr) (code : CmdCode) (s t : State) :
    raiseCmdError i code s = .next t ↔ t = { s with cmdStatus := { code := code, op := opcode i } } := by
  simp [raiseCmdError, complete, eq_comm]

@[simp] theorem finishResult_next (i : Instr) (v : Word) (s t : State) :
    finishResult i v s = .next t
      ↔ t = { s with result := v, cmdStatus := { code := .ok, op := opcode i } } := by
  simp [finishResult, finishOk, complete, eq_comm]

end Sys2Proof.Machine
end

