-- ==== Sys2Proof/Laws/Step.lean ====
section
/-! SUPPORT. One step, once and for all: it is one event of one agent, every command and every event ends in a next state, and the
decoder is the opcode table. -/

namespace Sys2Proof.Machine

/-! ## The decoder -/

theorem lookupOpcode_mem {op : Byte} {i} : ∀ {rows}, lookupOpcode op rows = some i → (op, i) ∈ rows
  | (o, j) :: rows, h => by
    unfold lookupOpcode at h
    split at h
    · rename_i ho; cases h; subst ho; exact List.mem_cons_self
    · exact List.mem_cons_of_mem _ (lookupOpcode_mem h)

theorem opcodeTable_opcode : ∀ r ∈ opcodeTable, r.1 = opcode r.2 := by decide

/-- The table holds exactly the opcodes of the commands. -/
theorem lookupOpcode_iff (op : Byte) (i) : lookupOpcode op opcodeTable = some i ↔ op = opcode i := by
  constructor
  · exact fun h => opcodeTable_opcode _ (lookupOpcode_mem h)
  · rintro rfl; cases i <;> rfl

/-- A word decodes to the command whose opcode it holds. -/
theorem decode_ok (w i) : decode w = .ok i ↔ opcodeField w = opcode i := by
  rw [← lookupOpcode_iff]; unfold decode; split <;> simp_all

/-! ## Commands and events -/

/-- Every command ends in a next state. -/
theorem exec_next (i s) : ∃ t, exec i s = .next t := by
  cases i <;>
      simp only [exec, execNop, execTxAlloc, execTxDiscard, execArqSend, execArqAbort, execRxRelease, execCksumGen,
        execCksumVerify, execStuff, execUnstuff, execParsePacket, execNotifyPingResponse, execAge, execSetOwnSeq,
        execAreNodesLinked, execIsDeviceOnline, execReadLsRecord, execReadNbRecord, execSoftReset] <;>
      (repeat' split) <;> exact ⟨_, rfl⟩

/-- Every event ends in a next state. -/
theorem runEvent_next (e s) : ∃ t, runEvent e s = .next t := by
  cases e with
  | hostWrite off size v =>
    simp only [runEvent, hostWrite]
    split
    · split
      · rename_i r _; cases r <;> simp only [writeReg, runCommand] <;> first | exact ⟨_, rfl⟩ | skip
        split
        · exact exec_next _ _
        · exact ⟨_, rfl⟩
      · exact ⟨_, rfl⟩
      · exact ⟨_, rfl⟩
    · exact ⟨_, rfl⟩
  | _ => exact ⟨_, rfl⟩

/-! ## Steps -/

theorem instanceRefusal_wf {p : Params} (h : p.wf = true) : instanceRefusal p = none := by
  simp [Params.wf] at h; simp [instanceRefusal, h]

/-- A step takes the head of the agenda. -/
theorem step_agenda {s : State} {e rest} (h : s.params.wf = true) (ha : s.env.agenda = e :: rest) :
   step s = runEvent e { s with env.agenda := rest } := by
  simp [step, instanceRefusal_wf h, nextEvent, ha]

/-- What a step is: an event, after the agenda or the free choice has moved on. -/
theorem step_next {s t : State} (h : step s = .next t) : s.params.wf = true ∧
   ∃ e ag n, runEvent e {s with env := {s.env with agenda := ag, eventNo := n}} = .next t := by
  unfold step at h
  split at h
  · cases h
  · rename_i hi
    refine ⟨?_, ?_⟩
    · unfold instanceRefusal at hi
      split at hi
      · cases hi
      · split at hi
        · cases hi
        · simp_all [Params.wf]
    · unfold nextEvent at h
      split at h
      · exact ⟨_, _, _, h⟩
      · exact ⟨_, _, _, h⟩

end Sys2Proof.Machine
end

