-- ==== Sys2Proof/Tests/Slice0.lean ====
section
/-! SUPPORT. Tests. The expected values of the first three parts are those of spec/95_test_vectors.md and of R93's table,
written out; the last part shows, for every statement that has hypotheses, concrete values that meet them. -/

namespace Sys2Proof.Tests

-- One test at a time: the many short kernel evaluations below would else each wait in a thread of its own.
set_option Elab.async false

open Sys2Proof.Machine

/-! ## Well-formedness: an ill-formed term for each check -/

theorem test_wf_default : Params.default.wf = true := by decide

theorem test_wf_refuses_flag_equal_esc : ({ Params.default with escByte := 0x7E } : Params).framingOk = false := by decide

theorem test_wf_refuses_no_nodes : ({ Params.default with nNodes := 0 } : Params).nodesOk = false := by decide

theorem test_wf_refuses_33_nodes : ({ Params.default with nNodes := 33 } : Params).nodesOk = false := by decide

theorem test_wf_takes_1_and_32_nodes :
    ({ Params.default with nNodes := 1 } : Params).wf = true ∧ ({ Params.default with nNodes := 32 } : Params).wf = true := by
  decide

theorem test_frame_refuses_0_and_65_bytes :
    frameOk [] = false ∧ frameOk (List.replicate 65 0x7E) = false ∧ frameOk (List.replicate 64 0x7E) = true := by decide

theorem test_access_refuses_size_and_alignment :
    accessOk 0x010 2 = false ∧ accessOk 0x010 8 = false ∧ accessOk 0x012 4 = false ∧ accessOk 0x3FC 4 = true := by decide

/-! ## Decoding: words written out from 30_encoding.md R93 -/

theorem test_decode_link_commands :
    decode 0b00000000000000000000000000000000 = .ok .nop ∧ decode 0b00000000000000000000000000000001 = .ok .txAlloc ∧
    decode 0b00000000000000000000000000000010 = .ok .txDiscard ∧ decode 0b00000000000000000000000000000011 = .ok .arqSend ∧
    decode 0b00000000000000000000000000000100 = .ok .arqAbort ∧ decode 0b00000000000000000000000000000101 = .ok .rxRelease := by
  decide

theorem test_decode_checksum_and_framer :
    decode 0b00000000000000000000000000010000 = .ok .cksumGen ∧ decode 0b00000000000000000000000000010001 = .ok .cksumVerify ∧
    decode 0b00000000000000000000000000010010 = .ok .stuff ∧ decode 0b00000000000000000000000000010011 = .ok .unstuff := by
  decide

theorem test_decode_records :
    decode 0b00000000000000000000000000100000 = .ok .parsePacket ∧
    decode 0b00000000000000000000000000100001 = .ok .notifyPingResponse ∧
    decode 0b00000000000000000000000000100010 = .ok .age ∧ decode 0b00000000000000000000000000100011 = .ok .setOwnSeq ∧
    decode 0b00000000000000000000000000110000 = .ok .areNodesLinked ∧
    decode 0b00000000000000000000000000110001 = .ok .isDeviceOnline ∧
    decode 0b00000000000000000000000000110010 = .ok .readLsRecord ∧
    decode 0b00000000000000000000000000110011 = .ok .readNbRecord := by
  decide

theorem test_decode_system :
    decode 0b00000000000000000000000011111111 = .ok .softReset ∧ decode 0b11111111111111111111111100000000 = .ok .nop := by
  decide

/-- Section 2.11: the holes of the table are rejected by their opcode. -/
theorem test_decode_rejects :
    decode 0x00000006 = .error (.illegalOpcode 0x06) ∧ decode 0x00000034 = .error (.illegalOpcode 0x34) ∧
    decode 0x000000FE = .error (.illegalOpcode 0xFE) ∧ decode 0x00000014 = .error (.illegalOpcode 0x14) ∧
    decode 0x00000024 = .error (.illegalOpcode 0x24) := by decide

theorem test_table_word : decodeTableWord 32 0x13 = some .unstuff ∧ decodeTableWord 8 0x13 = some .unstuff := by decide

/-! ## Small states -/

/-- Reset, with operands. -/
def withArgs (a0 a1 : Word) : State := { State.reset with arg0 := a0, arg1 := a1 }

/-- PBUF_TX owned, with its first bytes and operands. -/
def owned (bs : List Byte) (a0 a1 : Word) : State :=
  { withArgs a0 a1 with
    mem := bufWrite [] .pbufTx 0 bs
    tx := { State.reset.tx with txOwned := true, allocLen := 24 } }

/-- An enabled node with MY_HW_ADDR = 0x02 and the given frame offered. -/
def offered (f : List Byte) : State :=
  { State.reset with
    ctrl := { enable := true, seqCheck := true, txMode := true }
    addr := { myHw := 0x02, myLogical := 1 }
    env := { State.reset.env with rxOffer := some f } }

/-- Node 0x01 in a send of 30 bytes to 0x02, its first frame pending. -/
def sending : State :=
  { State.reset with
    ctrl := { enable := true, seqCheck := false, txMode := true }
    addr := { myHw := 0x01, myLogical := 0 }
    tx := { State.reset.tx with arqState := .sendingFragment, dest := 0x02, sendLen := 30, nfrag := 2, allocLen := 30 }
    port := { State.reset.port with dataPending := true, fbufTxLen := 32 } }

/-- The same send with the frame in flight. -/
def inFlight : State :=
  { sending with
    port := { sending.port with dataPending := false, txInflight := .data }
    env := { sending.env with txHeld := some [0x7E] } }

/-- The same send waiting for its ACK, with a timeout of 5 and 1 retry. -/
def waiting : State :=
  { sending with
    tx := { sending.tx with arqState := .awaitAck }
    port := { sending.port with dataPending := false }
    arqCfg := { ackTimeout := 5, maxRetries := 1 } }

/-- `waiting` with a latched ACK of sequence bit `sq` from `src`. -/
def acked (sq : Bool) (src : Byte) : State := { waiting with ack := { latched := true, seq := sq, src := src } }

/-- The records of section 2.9: LS[3] with mask 0, LS[4], NB[0], NB[6], own mask 0x41. -/
def records (a0 : Word) : State :=
  { withArgs a0 0 with
    ls := [{ zeroLs with mask := 0x41 }, zeroLs, zeroLs, { known := true, seq := 138, ttl := 30, mask := 0 },
           { known := true, seq := 200, ttl := 30, mask := 0 }] ++ List.replicate 11 zeroLs
    nb := [{ phys := 9, ttl := 30 }, zeroNb, zeroNb, zeroNb, zeroNb, zeroNb, { phys := 9, ttl := 30 }] ++ List.replicate 9 zeroNb }

/-- A register after a step that answers a next state. -/
def regOf (o : Host.Outcome State Fault Refusal) (r : PortReg) : Option Word :=
  match o with
  | .next t => some (readReg t r)
  | .fault _ => none
  | .refused _ => none

/-! ## Commands (spec/95_test_vectors.md sections 2.1 to 2.11) -/

theorem test_nop : regOf (exec .nop (withArgs 7 7)) .cmdStatus = some 0x00000000 := by decide +kernel

theorem test_txAlloc_128 : regOf (exec .txAlloc (withArgs 0x180 0)) .txInfo = some 0x00800000 := by decide +kernel
theorem test_txAlloc_129 : regOf (exec .txAlloc (withArgs 129 0)) .cmdStatus = some 0x00000105 := by decide +kernel

theorem test_txDiscard_unowned : regOf (exec .txDiscard State.reset) .cmdStatus = some 0x00000204 := by decide +kernel
theorem test_txDiscard : regOf (exec .txDiscard (owned [] 0 0)) .status = some 0x00000000 := by decide +kernel

theorem test_arqSend_disabled : regOf (exec .arqSend State.reset) .cmdStatus = some 0x00000303 := by decide +kernel
/-- Section 2.3, first row: the wire form of a single-fragment frame. -/
theorem test_arqSend_frame :
    (match exec .arqSend { owned [0x11, 0x22, 0x33] 0x302 0 with
        ctrl.enable := true, addr := { myHw := 1, myLogical := 0 } } with
      | .next t => bufBytes t.mem .fbufTx 0 t.port.fbufTxLen
      | _ => []) = [0x7E, 0x00, 0x19, 0x02, 0x01, 0x03, 0x11, 0x22, 0x33, 0x00, 0x01, 0x7E] := by decide +kernel

theorem test_arqAbort_in_flight : regOf (exec .arqAbort inFlight) .status = some 0x00009800 := by decide +kernel
theorem test_arqAbort_pending : regOf (exec .arqAbort sending) .txResult = some 0x00002003 := by decide +kernel

theorem test_rxRelease_flush :
    regOf (exec .rxRelease { State.reset with rx := { State.reset.rx with offset := 23, expected := true } }) .status
      = some 0x00000000 := by decide +kernel

theorem test_cksumGen : regOf (exec .cksumGen (owned [0x11, 0x22, 0x32] 0x300 1)) .result = some 1 := by decide +kernel
theorem test_cksumGen_range : regOf (exec .cksumGen (owned [] 0x27F 1)) .cmdStatus = some 0x00001006 := by decide +kernel

theorem test_cksumVerify_high_bits :
    regOf (exec .cksumVerify (owned [0x11, 0x22, 0x32] 0x300 0x01010001)) .result = some 0 := by decide +kernel
theorem test_cksumVerify_none :
    regOf (exec .cksumVerify (owned [0x11, 0x22, 0x32] 0x300 0xABCD0000)) .result = some 1 := by decide +kernel

theorem test_stuff :
    (match exec .stuff (owned [0x7E, 0x01, 0x7D, 0x02] 4 0) with
      | .next t => (t.result, bufBytes t.mem .fbufTx 0 8)
      | _ => (0, [])) = (8, [0x7E, 0x7D, 0x7E, 0x01, 0x7D, 0x7D, 0x02, 0x7E]) := by decide +kernel
theorem test_stuff_32 : regOf (exec .stuff (owned [] 32 0)) .cmdStatus = some 0x00001206 := by decide +kernel

theorem test_unstuff :
    regOf (exec .unstuff (owned [0x7E, 0x7D, 0x7E, 0x01, 0x7D, 0x7D, 0x02, 0x7E] 8 0)) .result = some 4 := by decide +kernel
theorem test_unstuff_no_flag : regOf (exec .unstuff (owned [0x7E, 0x01, 0x02] 3 0)) .result = some 0 := by decide +kernel

/-- Section 2.7: an entry above MAX is ignored and a repeated one sets one bit. -/
theorem test_parsePacket_first :
    (match exec .parsePacket (owned [0x00, 0x12, 0x03, 0x09, 0x04, 0x01, 0x01, 0x14, 0x03, 0x00, 0x01] 0x050B 0) with
      | .next t => (t.result, readReg t .pktStatus, (lsGet t 3).mask)
      | _ => (0, 0, 0)) = (0x7, 0x00001121, 0x000A) := by decide +kernel
theorem test_parsePacket_badType :
    regOf (exec .parsePacket (owned [0x00, 0x15, 0x00, 0x00, 0x01] 5 0)) .pktStatus = some 0x00000055 := by decide +kernel

theorem test_notifyPingResponse_own :
    regOf (exec .notifyPingResponse (withArgs 0x0009 0)) .result = some 3 := by decide +kernel
theorem test_notifyPingResponse_range :
    regOf (exec .notifyPingResponse (withArgs 0x1009 0)) .result = some 0 := by decide +kernel

theorem test_age_29 : regOf (exec .age (records 29)) .result = some 0x00000000 := by decide +kernel
theorem test_age_all : regOf (exec .age (records 0xFFFF)) .result = some 0x00000202 := by decide +kernel

theorem test_setOwnSeq :
    (match exec .setOwnSeq (records 0x42) with | .next t => (lsGet t 0).seq | _ => 0) = 0x42 := by decide +kernel

theorem test_areNodesLinked : regOf (exec .areNodesLinked (records 0x600)) .result = some 1 := by decide +kernel
theorem test_areNodesLinked_range : regOf (exec .areNodesLinked (records 0x010)) .result = some 0 := by decide +kernel

theorem test_isDeviceOnline_own : regOf (exec .isDeviceOnline (records 0)) .result = some 1 := by decide +kernel
theorem test_isDeviceOnline_ping_only : regOf (exec .isDeviceOnline (records 6)) .result = some 0 := by decide +kernel

theorem test_readLsRecord :
    (match exec .readLsRecord { records 0 with ls := (records 0).ls.set 0 { zeroLs with seq := 0x42, mask := 0x41 } } with
      | .next t => (t.result, t.mask)
      | _ => (0, 0)) = (0x00020042, 0x00000041) := by decide +kernel
theorem test_readLsRecord_range : regOf (exec .readLsRecord (records 16)) .cmdStatus = some 0x00003206 := by decide +kernel

theorem test_readNbRecord : regOf (exec .readNbRecord (records 6)) .result = some 0x00001E09 := by decide +kernel
theorem test_readNbRecord_range : regOf (exec .readNbRecord (records 16)) .cmdStatus = some 0x00003306 := by decide +kernel

theorem test_softReset_orphan : regOf (exec .softReset inFlight) .status = some 0x0000C000 := by decide +kernel

/-- Section 2.11: an illegal opcode is recorded, and bits 31:8 are ignored. -/
theorem test_illegal_command :
    regOf (runEvent (commandWrite 0x00000034) State.reset) .cmdStatus = some 0x00003401 := by decide +kernel

/-! ## The port, the sender and the receiver (sections 2.2 to 2.5 and 2.12) -/

theorem test_params_and_framing :
    readReg State.reset .params = 0x01801710 ∧ readReg State.reset .framing = 0x00FF7D7E := by decide +kernel

theorem test_addr_refuses_broadcast :
    regOf (runEvent (hostWr .addr 0x000001FF) State.reset) .addr = some 0x00000100 := by decide +kernel

theorem test_misaligned_write : regOf (runEvent (.hostWrite 0x002 4 0) State.reset) .status = some 0x00000080 := by
  decide +kernel

/-- Section 2.2: both addresses of the ACK are escaped. -/
theorem test_ack_frame :
    ackFrame { State.reset with addr := { myHw := 0x7E, myLogical := 0 } } 0x7D false
      = [0x7E, 0x01, 0x10, 0x7D, 0x7D, 0x7D, 0x7E, 0x00, 0x00, 0x00, 0x7E] := by decide +kernel

/-- Section 2.2: a lone ESC is kept as data; a flag before the end fails. -/
theorem test_unstuff_edges :
    unstuffFrame Params.default [0x7E, 0x7D, 0x41, 0x7E] 4 = some [0x7D, 0x41] ∧
    unstuffFrame Params.default [0x7E, 0x01, 0x7E, 0x7E] 4 = none ∧ unstuffFrame Params.default [0x7E, 0x7E] 2 = none := by
  decide +kernel

/-- R104: the checksum is over the first five interior bytes, addresses included (five 1 bits in 01 10 02 03 00). -/
theorem test_checksum_covers_addresses :
    frameInterior { State.reset with addr.myHw := 0x03 } 0x01 0x10 0x02 [] = [0x01, 0x10, 0x02, 0x03, 0x00, 0x00, 0x01] ∧
    rxVerified [0x01, 0x10, 0x02, 0x03, 0x00, 0x00, 0x00] = false := by decide

/-- R311, on section 2.4's FINAL_FRAME: two flipped bits in the data or in SRC go unseen, and in mode NONE any checksum does. -/
theorem test_corrupted_frames_are_accepted :
    regOf (runEvent .rxTake (offered [0x7E, 0x00, 0x19, 0x02, 0x01, 0x03, 0x12, 0x22, 0x33, 0x00, 0x01, 0x7E])) .rxEvent
      = some 0x000A0C02 ∧
    regOf (runEvent .rxTake (offered [0x7E, 0x00, 0x19, 0x02, 0x02, 0x03, 0x11, 0x22, 0x33, 0x00, 0x01, 0x7E])) .rxEvent
      = some 0x000A0C02 ∧
    regOf (runEvent .rxTake (offered [0x7E, 0x00, 0x09, 0x02, 0x07, 0x03, 0x11, 0x22, 0x33, 0xAB, 0xCD, 0x7E])) .rxEvent
      = some 0x000A0C02 := by decide +kernel

/-- Section 1.3, stored 250. -/
theorem test_sequence_window :
    seqNewer 250 122 = true ∧ seqNewer 250 123 = false ∧ seqNewer 250 250 = false ∧ seqNewer 128 0 = true := by decide

/-- Section 2.4: RX_EVENT of a checksum error, and of an accepted ACK. -/
theorem test_rx_events :
    regOf (runEvent .rxTake (offered [0x7E, 0x00, 0x19, 0x02, 0x01, 0x03, 0x11, 0x22, 0x33, 0x00, 0x00, 0x7E])) .rxEvent
      = some 0x000A0C06 ∧
    regOf (runEvent .rxTake (offered [0x7E, 0x01, 0x10, 0x02, 0x01, 0x00, 0x00, 0x00, 0x7E])) .rxEvent = some 0x00070907 := by
  decide +kernel

/-- Section 2.5: a timeout with retries left, and an ACK of the other sequence bit. -/
theorem test_tick_and_ack :
    regOf (runEvent .msTick { waiting with tx.timer := 4 }) .arqTimer = some 0x01000000 ∧
    (arqCheckAck (acked true 0x02)).tx.arqState = .awaitAck ∧ (arqCheckAck (acked false 0x02)).tx.fragIdx = 1 := by
  decide +kernel

theorem test_command_word_runs_first :
    step (State.reset.withFetchWord 32 0x05) = exec .rxRelease State.reset := rfl

/-! ## Hypotheses met: one theorem per statement that has hypotheses, a witness for each of its clauses -/

theorem test_hyp_HardwareResetLeavesResetValues :
    ({ State.reset with env.agenda := [.hardReset, .msTick] } : State).params.wf = true ∧
    ({ State.reset with env.agenda := [.hardReset, .msTick] } : State).env.agenda = .hardReset :: [.msTick] := ⟨by decide, rfl⟩

theorem test_hyp_ResetMeetsTheInvariant :
    ({ Params.default with nNodes := 1 } : Params).wf = true ∧ ({ Params.default with nNodes := 32 } : Params).wf = true := by
  decide

/-- `sending`, with TX issue next. -/
def sendingNext : State := { sending with env := { sending.env with agenda := [.txIssue] } }

/-- A state in a send meets the invariant. -/
theorem sendingNext_inv : BlockInv sendingNext where
  params := by decide
  sender := ⟨fun _ => .inl ⟨rfl, by simp [sendingNext, sending, State.reset, State.resetOf]⟩, by simp [sendingNext, sending, State.reset, State.resetOf],
    fun h => absurd rfl h, by simp [sendingNext, sending, State.reset, State.resetOf], fun _ => rfl, fun _ => ⟨by decide, by decide⟩,
    by simp [sendingNext, sending, State.reset, State.resetOf]⟩
  progress := ⟨fun _ => rfl, fun _ => rfl⟩
  range := by constructor <;> decide
  record := by
    refine ⟨rfl, rfl, ?_, by decide, ?_, by decide, by decide⟩
    · intro r hr; rw [(List.mem_replicate.1 hr).2]; decide
    · intro r hr; rw [(List.mem_replicate.1 hr).2]; decide
  mem := ⟨rfl, rfl⟩
  agent := ⟨by simp [sendingNext, sending, State.reset, State.resetOf], by simp [sendingNext, sending, State.reset, State.resetOf]⟩

theorem test_hyp_StepKeepsTheInvariant :
    BlockInv sendingNext ∧
    ∃ t, step sendingNext = .next t := ⟨sendingNext_inv, _, rfl⟩

theorem test_hyp_StepKeepsTheSenderInvariants :
    SenderInv sendingNext ∧
    ∃ t, step sendingNext = .next t := ⟨sendingNext_inv.sender, _, rfl⟩

theorem test_hyp_StepKeepsTheRecordFacts :
    ∃ s t, s = { records 30 with env := { State.reset.env with agenda := [commandWrite 0x22] } } ∧ step s = .next t ∧
      own t = own s ∧ UnknownIsZero s ∧ LiveIsKnown s ∧ s.ttlCfg.nbTtl ≠ 0 ∧ AbsentHasNoPhys s 1 ∧ AbsentHasNoPhys s 0 := by
  refine ⟨_, _, rfl, rfl, by decide +kernel, ?_, ?_, by decide, ?_, ?_⟩
  · unfold UnknownIsZero; decide +kernel
  · unfold LiveIsKnown; decide +kernel
  · unfold AbsentHasNoPhys; decide +kernel
  · unfold AbsentHasNoPhys; decide +kernel

theorem test_hyp_StepStopsOnlyOutsideTheSpec :
    State.reset.params.wf = true ∧
    (let p := { Params.default with escByte := 0x7E }; p.flagByte = p.escByte) ∧
    (let p := { Params.default with nNodes := 0 }; p.flagByte ≠ p.escByte ∧ p.nNodes = 0) ∧
    (let p := { Params.default with nNodes := 33 }; p.flagByte ≠ p.escByte ∧ 32 < p.nNodes) := by decide

theorem test_hyp_CommandWriteRunsTheDecodedCommand :
    State.reset.params.wf = true ∧
    (State.reset.withFetchWord 32 0xFF).env.agenda = commandWrite 0xFF :: [] ∧ decode 0xFF = .ok .softReset ∧
    ∀ i, (0xFFFFFF06 : Word).toNat % 256 ≠ (opcode i).toNat :=
  ⟨by decide, rfl, by decide, by intro i; cases i <;> decide⟩

/-- A code of each kind is reached. -/
theorem test_hyp_CommandErrorsFollowTheTable :
    regOf (exec .stuff sending) .cmdStatus = some 0x00001202 ∧
    regOf (exec .arqSend State.reset) .cmdStatus = some 0x00000303 ∧
    regOf (exec .parsePacket State.reset) .cmdStatus = some 0x00002004 ∧
    regOf (exec .txAlloc (withArgs 129 0)) .cmdStatus = some 0x00000105 ∧
    regOf (exec .arqSend { owned [] 0x18FF 0 with ctrl.enable := true }) .cmdStatus = some 0x00000305 ∧
    regOf (exec .readLsRecord (withArgs 16 0)) .cmdStatus = some 0x00003206 ∧
    regOf (exec .txAlloc (withArgs 0x100 0)) .cmdStatus = some 0x00000106 ∧
    regOf (exec .cksumGen (withArgs 0x0180 0)) .cmdStatus = some 0x00001006 ∧
    regOf (exec .cksumVerify (withArgs 0 2)) .cmdStatus = some 0x00001106 := by decide +kernel

theorem test_hyp_SoftResetKeepsConfiguration :
    PortReg.txInfo ∉ [PortReg.params, .framing, .ctrl, .addr, .irqEn, .arqCfg, .ttlCfg, .cmdStatus, .status] := by decide

theorem test_hyp_TxBufferCommands :
    (¬ (sending.tx.arqState = .idle ∨ sending.tx.arqState = .done)) ∧
    (State.reset.tx.arqState = .idle ∧ (withArgs 0x100 0).arg0.toNat % 256 = 0) ∧
    128 < (withArgs 129 0).arg0.toNat % 256 ∧
    (1 ≤ (withArgs 128 0).arg0.toNat % 256 ∧ (withArgs 128 0).arg0.toNat % 256 ≤ 128) ∧
    State.reset.tx.txOwned = false ∧ (owned [] 0 0).tx.txOwned = true := by decide

theorem test_hyp_ArqSendRejects :
    State.reset.ctrl.enable = false ∧
    (sending.ctrl.enable = true ∧ ¬ (sending.tx.arqState = .idle ∨ sending.tx.arqState = .done)) ∧
    (let s := { State.reset with ctrl.enable := true }; s.ctrl.enable = true ∧ s.tx.arqState = .idle ∧ s.tx.txOwned = false) ∧
    (let s := { owned [] 0x18FF 0 with ctrl.enable := true }; s.ctrl.enable = true ∧ s.tx.arqState = .idle ∧
      s.tx.txOwned = true ∧ s.arg0.toNat % 256 = 255 ∧ 23 < s.arg0.toNat / 256 % 256) ∧
    (let s := { owned [] 0x8102 0 with ctrl.enable := true }; s.tx.txOwned = true ∧ 128 < s.arg0.toNat / 256 % 256) ∧
    (let s := { owned [] 0x1902 0 with ctrl.enable := true }; s.ctrl.enable = true ∧ s.tx.arqState = .idle ∧
      s.tx.txOwned = true ∧ ¬ (128 < s.arg0.toNat / 256 % 256 ∨ (s.arg0.toNat % 256 = 255 ∧ 23 < s.arg0.toNat / 256 % 256)) ∧
      s.tx.allocLen < s.arg0.toNat / 256 % 256) := by decide

/-- Both a unicast send of several fragments and the longest broadcast. -/
theorem test_hyp_ArqSendStartsTheSend :
    (let s := { owned [] 0x1802 0 with ctrl.enable := true }
     memWf s.mem = true ∧ s.ctrl.enable = true ∧ s.tx.arqState = .idle ∧ s.tx.txOwned = true ∧
      1 ≤ s.arg0.toNat / 256 % 256 ∧ s.arg0.toNat / 256 % 256 ≤ s.tx.allocLen ∧ s.arg0.toNat % 256 ≠ 255) ∧
    (let s := { owned [] 0x17FF 0 with ctrl.enable := true, tx.arqState := .done }
     memWf s.mem = true ∧ s.tx.arqState = .done ∧ s.tx.txOwned = true ∧ s.arg0.toNat % 256 = 255 ∧
      s.arg0.toNat / 256 % 256 = 23 ∧ s.arg0.toNat / 256 % 256 ≤ s.tx.allocLen) := by decide +kernel

theorem test_hyp_ArqAbortCancels :
    State.reset.tx.arqState = .idle ∧ waiting.tx.arqState = .awaitAck ∧
    (sending.tx.arqState = .sendingFragment ∧ sending.port.dataPending = true) ∧
    (inFlight.tx.arqState = .sendingFragment ∧ inFlight.port.dataPending = false) := by decide

theorem test_hyp_RxReleaseHandsBackTheBuffer :
    ({ State.reset with rx.ready := true } : State).rx.ready = true ∧ State.reset.rx.ready = false := by decide

theorem test_hyp_ChecksumCommands :
    1 < (withArgs 0 2).arg1.toNat % 4 ∧
    128 < (withArgs 0x27F 1).arg0.toNat % 256 + (withArgs 0x27F 1).arg0.toNat / 256 % 256 ∧
    ((withArgs 0x17F 1).arg1.toNat % 4 ≤ 1 ∧
      (withArgs 0x17F 1).arg0.toNat % 256 + (withArgs 0x17F 1).arg0.toNat / 256 % 256 = 128) := by decide

theorem test_hyp_ChecksumLaws :
    ([0x11, 0x22] : List Byte).Perm [0x22, 0x11] ∧
    (([0x03] : List Byte).flatMap fun b => (List.range 8).map fun i => b.getLsbD i).Perm
      (([0x81] : List Byte).flatMap fun b => (List.range 8).map fun i => b.getLsbD i) ∧
    (([0, 0x80] : List Byte).length = ([0x11, 0x22] : List Byte).length ∧ (([0, 0x80] : List Byte).map popcount).sum = 1) ∧
    (([1, 0x80] : List Byte).map popcount).sum % 2 = 0 := by decide +kernel

theorem test_hyp_StuffCommand :
    (¬ (waiting.tx.arqState = .idle ∨ waiting.tx.arqState = .done)) ∧
    (State.reset.tx.arqState = .idle ∧ State.reset.tx.txOwned = false) ∧
    ((owned [] 0 0).tx.txOwned = true ∧ (owned [] 0 0).arg0.toNat % 256 < 1 ∧ 31 < (owned [] 32 0).arg0.toNat % 256) ∧
    (memWf (owned [0x7E] 31 0).mem = true ∧ (owned [0x7E] 31 0).tx.arqState = .idle ∧
      (owned [0x7E] 31 0).tx.txOwned = true ∧ (owned [0x7E] 31 0).arg0.toNat % 256 = 31) := by decide +kernel

theorem test_hyp_UnstuffCommand :
    (¬ (waiting.tx.arqState = .idle ∨ waiting.tx.arqState = .done)) ∧
    (State.reset.tx.arqState = .idle ∧ State.reset.tx.txOwned = false) ∧
    ((owned [] 65 0).tx.txOwned = true ∧ 64 < (owned [] 65 0).arg0.toNat % 256) ∧
    ((owned [] 64 0).arg0.toNat % 256 = 64 ∧
      unstuffFrame (owned [] 64 0).params (bufBytes (owned [] 64 0).mem .pbufTx 0 64) 64 = none) ∧
    (memWf (owned [0x7E, 0x01, 0x7E] 3 0).mem = true ∧ (owned [0x7E, 0x01, 0x7E] 3 0).tx.txOwned = true ∧
      unstuffFrame Params.default (bufBytes (owned [0x7E, 0x01, 0x7E] 3 0).mem .pbufTx 0 3) 3 = some [0x01]) := by
  decide +kernel

theorem test_hyp_StuffedLengthCountsEscapes :
    (List.replicate 30 (0x7E : Byte)).length ≤ 30 ∧ (List.replicate 7 (0x7E : Byte)).length = 7 := by decide

theorem test_hyp_UnstuffUndoesStuff : Params.default.flagByte ≠ Params.default.escByte ∧ 1 ≤ ([0x7E] : List Byte).length := by
  decide

theorem test_hyp_UnstuffRejectsBadFrames :
    Params.default.flagByte ≠ Params.default.escByte ∧ (0x00 : Byte) ≠ Params.default.flagByte ∧
    3 < (stuffFrame Params.default [0x7E]).length ∧ ([0x7E] : List Byte) ≠ [] := by decide

theorem test_hyp_BuiltFrameParsesBack :
    State.reset.params.flagByte ≠ State.reset.params.escByte ∧ (List.replicate 23 (0x7D : Byte)).length ≤ 23 := by decide

theorem test_hyp_ParsePacketCommand :
    State.reset.tx.txOwned = false ∧ ((owned [] 129 0).tx.txOwned = true ∧ 128 < (owned [] 129 0).arg0.toNat % 256) ∧
    ((owned [] 128 0).tx.txOwned = true ∧ (owned [] 128 0).arg0.toNat % 256 ≤ 128) := by decide

/-- One packet of section 2.6 for each clause. -/
theorem test_hyp_ValidationOrder :
    validate [0x00, 0x13, 0x00] = .tooShort ∧ validate [0x00, 0x23, 0x00, 0x00] = .badMode ∧
    validate [0x00, 0x13, 0x00, 0x00] = .checksumFail ∧ validate [0x00, 0x15, 0x00, 0x00, 0x01] = .badType ∧
    validate [0x00, 0x11, 0x00, 0x00] = .lengthMismatch ∧ validate [0xFF, 0xC3, 0x12, 0x34] = .valid := by decide +kernel

theorem test_hyp_ParserDispatchesByType :
    validate [] ≠ .valid ∧ validate [0x00, 0x11, 0x00, 0x01, 0x02, 0x99, 0x98, 0x00, 0x01] = .valid ∧
    validate [0x00, 0x13, 0x00, 0x01] = .valid ∧ validate [0x00, 0x12, 0x02, 0x07, 0x00, 0x00, 0x00] = .valid ∧
    validate [0x00, 0x14, 0x03, 0x00, 0x00] = .valid := by decide +kernel

/-- Out of range, own, unknown, newer by 1 and by 128, older by 127 and equal. -/
theorem test_hyp_LinkStateAcceptance :
    (records 0).params.wf = true ∧ (records 0).ls.length = (records 0).params.nNodes ∧
    (records 0).params.nNodes ≤ (16 : Byte).toNat ∧ (0 : Byte) = (records 0).addr.myLogical ∧
    ((15 : Byte).toNat < 16 ∧ (15 : Byte) ≠ (records 0).addr.myLogical ∧ (lsGet (records 0) 15).known = false) ∧
    ((lsGet (records 0) 3).known = true ∧ (139 + 256 - (lsGet (records 0) 3).seq.toNat) % 256 = 1 ∧
      (10 + 256 - (lsGet (records 0) 3).seq.toNat) % 256 = 128) ∧
    ((11 + 256 - (lsGet (records 0) 3).seq.toNat) % 256 = 129 ∧ (138 + 256 - (lsGet (records 0) 3).seq.toNat) % 256 = 0) := by
  decide +kernel

theorem test_hyp_SequenceWindow : 1 ≤ 128 ∧ 128 ≤ 128 ∧ 127 ≤ 127 := by decide

theorem test_hyp_PingResponseCommand :
    (records 0x1009).params.wf = true ∧ (records 0x1009).params.nNodes ≤ (records 0x1009).arg0.toNat / 256 % 256 ∧
    ((records 0x0F09).arg0.toNat / 256 % 256 < (records 0x0F09).params.nNodes ∧
      (records 0x0F09).ls.length = (records 0x0F09).params.nNodes ∧ (records 0x0F09).nb.length = (records 0x0F09).params.nNodes ∧
      (records 0x0F09).addr.myLogical.toNat < (records 0x0F09).params.nNodes) := by decide

theorem test_hyp_AgeExpiresRecords :
    (records 30).params.wf = true ∧ (records 30).ls.length = (records 30).params.nNodes ∧
    (records 30).nb.length = (records 30).params.nNodes ∧ (records 30).addr.myLogical.toNat < (records 30).params.nNodes := by
  decide

theorem test_hyp_SetOwnSeqCommand : (records 0).addr.myLogical.toNat < (records 0).ls.length := by decide

theorem test_hyp_QueryAndReadCommands :
    (records 16).params.wf = true ∧ (records 16).params.nNodes ≤ (records 16).arg0.toNat % 256 ∧
    (records 15).arg0.toNat % 256 < (records 15).params.nNodes := by decide

theorem test_hyp_CommandsLeaveTheRestAlone :
    (∃ t, exec .stuff (owned [0x7E] 1 0) = .next t) ∧ memWf (owned [0x7E] 1 0).mem = true ∧
    (∃ t, exec .arqSend { owned [] 0x1802 0 with ctrl.enable := true } = .next t) ∧ (∃ t, exec .age (records 30) = .next t) := by
  refine ⟨⟨_, rfl⟩, by decide +kernel, ⟨_, rfl⟩, ⟨_, rfl⟩⟩

theorem test_hyp_WindowReadsAreLittleEndian :
    4 * 31 < bufSize .pbufTx ∧ 4 * 31 < bufSize .pbufRx ∧ 4 * 15 < bufSize .fbufTx ∧ 4 * 15 < bufSize .fbufRx ∧
    4 * 3 < bufSize .abuf := by decide

theorem test_hyp_PbufTxWritesNeedOwnership :
    31 < 32 ∧ State.reset.tx.txOwned = false ∧ (owned [0x11] 0 0).tx.txOwned = true ∧ memWf (owned [0x11] 0 0).mem = true := by
  decide +kernel

/-- The last offset of each range that a clause names, and the first one after it. -/
theorem test_hyp_AccessesWithoutEffect :
    (0x013 : BitVec 10).toNat % 4 ≠ 0 ∧ (2 : Nat) ≠ 4 ∧
    (0x060 : BitVec 10).toNat % 4 = 0 ∧ (0x0FC : BitVec 10).toNat < 0x100 ∧ 0x180 ≤ (0x180 : BitVec 10).toNat ∧
    (0x1FC : BitVec 10).toNat < 0x200 ∧ (0x2FC : BitVec 10).toNat < 0x300 ∧ 0x390 ≤ (0x390 : BitVec 10).toNat ∧
    portTarget 0x05C = .reg .txRetryCount ∧ portTarget 0x17C = .window .pbufTx 124 ∧ portTarget 0x27C = .window .pbufRx 124 ∧
    portTarget 0x38C = .window .abuf 12 := by decide +kernel

/-- Every count at the top of its range. -/
def fullCounts : State :=
  { State.reset with
    params.nNodes := 32
    rx := { offset := 128, expected := true, ready := true, fbufRxLen := 64 }
    rxEvent := { event := .duplicate, unstuffedLen := 62 }
    tx := { State.reset.tx with allocLen := 128, sendLen := 128, nfrag := 6, fragIdx := 5, fragsDone := 6 }
    txResult := { code := .aborted, fragsDone := 6, nfrag := 6 }
    port := { State.reset.port with fbufTxLen := 64, abufLen := 16 } }

theorem test_hyp_RegisterReadsShowTheFields :
    fullCounts.params.wf = true ∧ RangeInv fullCounts ∧
    runEvent (.hostRead 0x05C 4) fullCounts = .next { fullCounts with env.hostData := readReg fullCounts .txRetryCount } :=
  ⟨by decide, by constructor <;> decide, rfl⟩

theorem test_hyp_AddrWrites :
    State.reset.params.wf = true ∧ sending.ctrl.enable = true ∧ State.reset.ctrl.enable = false := by decide

theorem test_hyp_CtrlWrites :
    (State.reset.ctrl.enable = false ∧ (5 : Word).toNat % 2 = 1) ∧ (sending.ctrl.enable = true ∧ (4 : Word).toNat % 2 = 0) ∧
    (let s := { State.reset with ctrl.enable := true }; s.ctrl.enable = true ∧ s.tx.arqState = .idle) ∧
    (waiting.ctrl.enable = true ∧ waiting.tx.arqState = .awaitAck) ∧
    (sending.tx.arqState = .sendingFragment ∧ sending.port.dataPending = true) ∧
    (inFlight.ctrl.enable = true ∧ inFlight.tx.arqState = .sendingFragment ∧ inFlight.port.dataPending = false) := by decide

theorem test_hyp_StatusWritesClear : 7 ∈ [0, 2, 3, 4, 5, 6, 7] ∧ 1 ∉ [0, 2, 3, 4, 5, 6, 7, 12, 13] ∧ 31 ∉ [0, 2, 3, 4, 5, 6, 7, 12, 13] := by
  decide

theorem test_hyp_BuildFragmentMakesTheFrame : memWf sending.mem = true := rfl

theorem test_hyp_AckCheckAdvancesOrEnds :
    memWf waiting.mem = true ∧ ¬ (waiting.tx.arqState = .awaitAck ∧ waiting.ack.latched = true) ∧
    (let s := acked true 0x02; s.tx.arqState = .awaitAck ∧ s.ack.latched = true ∧ ¬ (s.ack.src = s.tx.dest ∧ s.ack.seq = s.tx.curSeq)) ∧
    (let s := { acked false 0x02 with tx := { waiting.tx with fragIdx := 1 } }; s.tx.arqState = .awaitAck ∧ s.ack.latched = true ∧
      s.ack.src = s.tx.dest ∧ s.ack.seq = s.tx.curSeq ∧ s.tx.fragIdx + 1 = s.tx.nfrag) ∧
    (let s := acked false 0x02; s.tx.arqState = .awaitAck ∧ s.ack.latched = true ∧
      s.ack.src = s.tx.dest ∧ s.ack.seq = s.tx.curSeq ∧ s.tx.fragIdx + 1 ≠ s.tx.nfrag) := by decide

theorem test_hyp_TxIssueSendsAckFirst :
    ¬ (State.reset.ctrl.enable = true ∧ State.reset.port.txInflight = .none) ∧
    (let s := { sending with port := { sending.port with ackPending := true } }
     s.ctrl.enable = true ∧ s.port.txInflight = .none ∧ s.port.ackPending = true) ∧
    (sending.ctrl.enable = true ∧ sending.port.txInflight = .none ∧ sending.port.ackPending = false ∧
      sending.port.dataPending = true) := by decide

theorem test_hyp_TxCompletion :
    sending.port.txInflight = .none ∧ ({ sending with port := { sending.port with txInflight := .orphan } } : State).port.txInflight = .orphan ∧
    (let s := { inFlight with port := { inFlight.port with abortPending := true } }
     s.port.txInflight = .data ∧ s.port.abortPending = true) ∧
    (inFlight.port.txInflight = .data ∧ inFlight.port.abortPending = false ∧ inFlight.tx.dest ≠ 0xFF) ∧
    (let s := { inFlight with tx := { inFlight.tx with dest := 0xFF } }
     s.port.txInflight = .data ∧ s.port.abortPending = false ∧ s.tx.dest = 0xFF) := by decide

theorem test_hyp_MsTickCountsAndRetries :
    memWf waiting.mem = true ∧ ¬ (sending.tx.arqState = .awaitAck ∧ sending.arqCfg.ackTimeout.toNat ≠ 0) ∧
    (let s := { waiting with tx := { waiting.tx with timer := 3 } }
     s.tx.arqState = .awaitAck ∧ s.arqCfg.ackTimeout.toNat ≠ 0 ∧ min (s.tx.timer.toNat + 1) 0xFFFF < s.arqCfg.ackTimeout.toNat) ∧
    (let s := { waiting with tx := { waiting.tx with timer := 4 } }
     s.arqCfg.ackTimeout.toNat ≤ min (s.tx.timer.toNat + 1) 0xFFFF ∧ s.tx.retries.toNat < s.arqCfg.maxRetries.toNat) ∧
    (let s := { waiting with tx := { waiting.tx with timer := 4, retries := 1 } }
     s.arqCfg.ackTimeout.toNat ≤ min (s.tx.timer.toNat + 1) 0xFFFF ∧ s.arqCfg.maxRetries.toNat ≤ s.tx.retries.toNat) := by
  decide

theorem test_hyp_UnansweredSendIsBounded :
    waiting.tx.arqState = .awaitAck ∧ waiting.tx.timer = 0 ∧ waiting.tx.retries = 0 ∧ waiting.arqCfg.ackTimeout ≠ 0 ∧
    waiting.ctrl.enable = true ∧ waiting.port.ackPending = false ∧ waiting.port.txInflight = .none ∧
    waiting.port.abortPending = false ∧ waiting.tx.dest ≠ 0xFF ∧ 1 ≤ waiting.arqCfg.maxRetries.toNat := by decide

theorem test_hyp_OfferedFramesWait :
    State.reset.ctrl.enable = false ∧
    ({ sending with port := { sending.port with ackPending := true } } : State).port.ackPending = true ∧
    ({ sending with port := { sending.port with txInflight := .ack } } : State).port.txInflight = .ack ∧
    sending.env.rxOffer = none := by decide

/-! ### Frames (section 2.4) -/

theorem offered_ok (f : List Byte) (h1 : 1 ≤ f.length) (h2 : f.length ≤ 64) : Offered (offered f) f :=
  ⟨rfl, rfl, by simp [offered, State.reset, State.resetOf], rfl, h1, h2⟩

/-- The interior of the test frames: data to 0x02, data to everyone, control. -/
def dataX : List Byte := [0x00, 0x19, 0x02, 0x01, 0x03, 0x11, 0x22, 0x33, 0x00, 0x01]
def bcastX : List Byte := [0x00, 0x19, 0xFF, 0x03, 0x04, 0x00, 0x13, 0x00, 0x01, 0x00, 0x00]
def ackX : List Byte := [0x01, 0x10, 0x02, 0x01, 0x00, 0x00, 0x00]
def rtcX : List Byte := [0x02, 0x10, 0x02, 0x01, 0x00, 0x00, 0x00]
def ctcX : List Byte := [0x03, 0x10, 0x02, 0x01, 0x00, 0x00, 0x01]
def unknownX : List Byte := [0x04, 0x10, 0x02, 0x01, 0x00, 0x00, 0x00]
def seqX : List Byte := [0x00, 0x1D, 0x02, 0x01, 0x03, 0x11, 0x22, 0x33, 0x00, 0x00]
def firstX : List Byte := [0x00, 0x11, 0x02, 0x01, 0x01, 0x11, 0x00, 0x01]

/-- The wire form of an interior with no byte to escape. -/
def wire (x : List Byte) : List Byte := [0x7E] ++ x ++ [0x7E]

theorem frames_good :
    ∀ x ∈ [dataX, bcastX, ackX, rtcX, ctcX, unknownX, seqX, firstX],
      FormatGood x ∧ (x.getD 2 0 = 0x02 ∨ x.getD 2 0 = 0xFF) ∧ ChecksumGood x ∧
      unstuffFrame Params.default (wire x) (wire x).length = some x := by
  unfold FormatGood ChecksumGood; decide +kernel

theorem good_of (x : List Byte) (h : x ∈ [dataX, bcastX, ackX, rtcX, ctcX, unknownX, seqX, firstX]) :
    FrameGood (offered (wire x)) x := ⟨(frames_good x h).1, (frames_good x h).2.1, (frames_good x h).2.2.1⟩

theorem test_hyp_BadFramesAreDropped :
    (memWf (offered [0x7E, 0x01, 0x02]).mem = true ∧ Offered (offered [0x7E, 0x01, 0x02]) [0x7E, 0x01, 0x02] ∧
      unstuffFrame Params.default [0x7E, 0x01, 0x02] 3 = none) ∧
    (∃ x, unstuffFrame Params.default (wire [0x00, 0x19, 0x02, 0x01, 0x05, 0x11, 0x00, 0x00]) 10 = some x ∧ ¬ FormatGood x) ∧
    (∃ x, x = [0x00, 0x19, 0x05, 0x01, 0x03, 0x11, 0x22, 0x33, 0x00, 0x00] ∧ FormatGood x ∧ ¬ AddressGood (offered (wire x)) x) ∧
    (∃ x, x = [0x00, 0x19, 0x02, 0x01, 0x03, 0x11, 0x22, 0x33, 0x00, 0x00] ∧ FormatGood x ∧ AddressGood (offered (wire x)) x ∧
      ¬ ChecksumGood x) ∧
    (FrameGood (offered (wire unknownX)) unknownX ∧ (unknownX.getD 1 0).getLsbD 0 = false ∧
      unknownX.getD 0 0 ∉ [0x01, 0x02, 0x03]) ∧
    (FrameGood (offered (wire dataX)) dataX ∧ (dataX.getD 1 0).getLsbD 0 = true ∧
      128 < 126 + (dataX.getD 4 0).toNat ∧ (dataX.getD 1 0).getLsbD 2 = (offered (wire dataX)).rx.expected) := by
  refine ⟨⟨rfl, offered_ok _ (by decide) (by decide), by decide⟩, ⟨_, rfl, by unfold FormatGood; decide +kernel⟩,
    ⟨_, rfl, by unfold FormatGood; decide +kernel, by unfold AddressGood; decide +kernel⟩,
    ⟨_, rfl, by unfold FormatGood; decide +kernel, by unfold AddressGood; decide +kernel, by unfold ChecksumGood; decide +kernel⟩,
    ⟨good_of _ (by simp), by decide, by decide⟩, ⟨good_of _ (by simp), by decide, by decide, by decide⟩⟩

theorem test_hyp_ControlFramesAreLatched :
    ∀ x ∈ [ackX, rtcX, ctcX], memWf (offered (wire x)).mem = true ∧ Offered (offered (wire x)) (wire x) ∧
      unstuffFrame (offered (wire x)).params (wire x) (wire x).length = some x ∧ FrameGood (offered (wire x)) x ∧
      (x.getD 1 0).getLsbD 0 = false ∧ x.getD 0 0 ∈ [0x01, 0x02, 0x03] := by
  intro x hx
  have hm : x ∈ [dataX, bcastX, ackX, rtcX, ctcX, unknownX, seqX, firstX] := by
    simp only [List.mem_cons, List.not_mem_nil, or_false] at hx ⊢
    rcases hx with h | h | h <;> simp [h]
  refine ⟨rfl, offered_ok _ ?_ ?_, (frames_good x hm).2.2.2, good_of x hm, ?_, ?_⟩ <;>
    (simp only [List.mem_cons, List.not_mem_nil, or_false] at hx; rcases hx with h | h | h <;> rw [h] <;> decide)

theorem test_hyp_DuplicatesAreReacknowledged :
    memWf (offered (wire seqX)).mem = true ∧ Offered (offered (wire seqX)) (wire seqX) ∧
    unstuffFrame (offered (wire seqX)).params (wire seqX) (wire seqX).length = some seqX ∧ FrameGood (offered (wire seqX)) seqX ∧
    (seqX.getD 1 0).getLsbD 0 = true ∧ (offered (wire seqX)).rx.ready = false ∧
    (seqX.getD 1 0).getLsbD 2 ≠ (offered (wire seqX)).rx.expected ∧ (offered (wire seqX)).ctrl.seqCheck = true :=
  ⟨rfl, offered_ok _ (by decide) (by decide), (frames_good _ (by simp)).2.2.2, good_of _ (by simp), by decide, rfl, by decide, rfl⟩

/-- A final unicast, a final broadcast and a first fragment. -/
theorem test_hyp_DataFramesAreReassembled :
    ∀ x ∈ [dataX, bcastX, firstX], memWf (offered (wire x)).mem = true ∧ Offered (offered (wire x)) (wire x) ∧
      unstuffFrame (offered (wire x)).params (wire x) (wire x).length = some x ∧ FrameGood (offered (wire x)) x ∧
      (x.getD 1 0).getLsbD 0 = true ∧ (offered (wire x)).rx.ready = false ∧
      (x.getD 1 0).getLsbD 2 = (offered (wire x)).rx.expected ∧ (offered (wire x)).rx.offset + (x.getD 4 0).toNat ≤ 128 := by
  intro x hx
  have hm : x ∈ [dataX, bcastX, ackX, rtcX, ctcX, unknownX, seqX, firstX] := by
    simp only [List.mem_cons, List.not_mem_nil, or_false] at hx ⊢
    rcases hx with h | h | h <;> simp [h]
  refine ⟨rfl, offered_ok _ ?_ ?_, (frames_good x hm).2.2.2, good_of x hm, ?_, rfl, ?_, ?_⟩ <;>
    (simp only [List.mem_cons, List.not_mem_nil, or_false] at hx; rcases hx with h | h | h <;> rw [h] <;> decide)

/-- A delivered packet, a valid one that is not delivered, and an invalid one. -/
theorem test_hyp_DeliveryOfPackets :
    (let r := parsePacket [0x00, 0x13, 0x00, 0x01] 3 State.reset; r.1.vcode = .valid ∧ r.1.deliverable = true) ∧
    (let r := parsePacket [0x00, 0x14, 0x03, 0x00, 0x00] 3 State.reset; r.1.vcode = .valid ∧ r.1.deliverable = false) ∧
    (parsePacket [0x00, 0x13, 0x00, 0x00] 3 State.reset).1.vcode ≠ .valid := by decide +kernel

theorem test_hyp_EveryTakenFrameHasOneEvent :
    memWf (offered (wire dataX)).mem = true ∧ Offered (offered (wire dataX)) (wire dataX) ∧
    (∃ t, runEvent .rxTake (offered (wire dataX)) = .next t) ∧
    (rxTake (offered (wire dataX))).port.ackPending = true ∧
    isDrop (rxTake (offered (wire unknownX))).rxEvent.event = true :=
  ⟨rfl, offered_ok _ (by decide) (by decide), ⟨_, rfl⟩, by decide +kernel, by decide +kernel⟩

theorem test_hyp_TopoChangedRisesOnlyAtRecordUpdates :
    (∃ t, runEvent (commandWrite 0x21) (withArgs 0x0009 0) = .next t ∧ t.flags.topoChanged = true) ∧
    (withArgs 0x0009 0).flags.topoChanged = false := ⟨⟨_, rfl, by decide +kernel⟩, rfl⟩

theorem test_hyp_QuiescentStatesRest : Quiescent State.reset := ⟨rfl, rfl, rfl, rfl, .inl rfl⟩

/-- The host writes a word that would decode to SOFT_RESET, but to PBUF_TX; and it writes NOP to CMD. -/
theorem test_hyp_PbufTxIsStableDuringASend :
    SenderInv sendingNext ∧ memWf sendingNext.mem = true ∧ Active sendingNext ∧
    (∃ t, runEvent (.hostWrite 0x100 4 0xFFFFFFFF) sendingNext = .next t) ∧
    Event.hostWrite 0x100 4 0xFFFFFFFF ≠ .hardReset ∧
    (∀ v, Event.hostWrite 0x100 4 0xFFFFFFFF = .hostWrite 0x018 4 v → decode v ≠ .ok .softReset) ∧
    ∀ v, Event.hostWrite 0x018 4 0 = .hostWrite 0x018 4 v → decode v ≠ .ok .softReset :=
  ⟨sendingNext_inv.sender, rfl, rfl, ⟨_, rfl⟩, by decide, by simp, by rintro v h; cases h; decide⟩

end Sys2Proof.Tests
end

section
/-! The host port, access by access: what an aligned access at a register's offset does, the bits of a register word, and a
register word as the sum of its fields. -/

namespace Sys2Proof.Machine

/-! ## Accesses at a register's offset -/

theorem accessOk_reg (r : PortReg) : accessOk (BitVec.ofNat 10 (regOffset r)) 4 = true := by cases r <;> rfl

/-- A 32-bit write at a register's offset writes the register. -/
theorem runEvent_hostWrite_reg (r : PortReg) (v : Word) (s : State) :
    runEvent (.hostWrite (BitVec.ofNat 10 (regOffset r)) 4 v) s = writeReg r v s := by
  simp only [runEvent, hostWrite, accessOk_reg, portTarget_reg, if_true]

/-- A 32-bit read at a register's offset answers the register. -/
theorem runEvent_hostRead_reg (r : PortReg) (s : State) :
    runEvent (.hostRead (BitVec.ofNat 10 (regOffset r)) 4) s = .next { s with env.hostData := readReg s r } := by
  simp only [runEvent, hostRead, accessOk_reg, readPort, portTarget_reg, if_true]

/-! ## The bits of a register word -/

theorem bitAt_getLsbD {k : Nat} (hk : k < 32) (b : Bool) (i : Nat) : (bitAt k b).getLsbD i = (decide (i = k) && b) := by
  rcases Nat.lt_trichotomy i k with h | rfl | h
  · simp [bitAt, fieldAt, h, h.ne]
  · simp [bitAt, fieldAt, hk]
  · have hi : i - k ≠ 0 := by omega
    simp [bitAt, fieldAt, h.ne', hi]

/-- A field has no bit outside its place. -/
theorem fieldAt_getLsbD_outside {w lo i : Nat} (x : BitVec w) (h : i < lo ∨ lo + w ≤ i) :
    (fieldAt lo x).getLsbD i = false := by
  rcases h with h | h
  · simp [fieldAt, h]
  · simp [fieldAt, BitVec.getLsbD_of_ge x (i - lo) (by omega)]

/-- Bit 0 of a word is its parity. -/
theorem getLsbD_zero_iff (v : Word) : v.getLsbD 0 = true ↔ v.toNat % 2 = 1 := by
  rw [BitVec.getLsbD, Nat.testBit_zero, decide_eq_true_iff]

/-! ## A register word as the sum of its fields -/

/-- The word `v` is the number `n`, and its bits from `k` on are still free. -/
structure Packs (v : Word) (k n : Nat) : Prop where
  toNat : v.toNat = n
  lt : n < 2 ^ k

theorem packs_fieldAt {w : Nat} (x : BitVec w) (hw : w ≤ 32 := by decide) : Packs (fieldAt 0 x) w x.toNat :=
  ⟨by rw [fieldAt_toNat 0 x (by omega)]; omega, x.isLt⟩

theorem packs_bitAt (b : Bool) : Packs (bitAt 0 b) 1 b.toNat := by
  simpa [bitAt] using packs_fieldAt (BitVec.ofBool b)

theorem packs_countAt {w n : Nat} (hn : n < 2 ^ w) (hw : w ≤ 32 := by decide) : Packs (countAt w 0 n) w n := by
  simpa [countAt, Nat.mod_eq_of_lt hn] using packs_fieldAt (BitVec.ofNat w n) hw

theorem Packs.fieldAt {v : Word} {k n w : Nat} (h : Packs v k n) (lo : Nat) (x : BitVec w)
    (hk : k ≤ lo := by decide) (hw : lo + w ≤ 32 := by decide) :
    Packs (v ||| fieldAt lo x) (lo + w) (n + 2 ^ lo * x.toNat) := by
  have hv : v.toNat < 2 ^ lo := h.toNat ▸ h.lt.trans_le (Nat.pow_le_pow_right (by omega) hk)
  have hor := or_fieldAt_toNat v lo x hw hv
  refine ⟨hor.trans (by rw [h.toNat]), ?_⟩
  rw [← h.toNat, ← hor]
  exact or_lt_two_pow (hv.trans_le (Nat.pow_le_pow_right (by omega) (by omega))) (fieldAt_lt lo _ x le_rfl hw)

theorem Packs.bitAt {v : Word} {k n : Nat} (h : Packs v k n) (lo : Nat) (b : Bool)
    (hk : k ≤ lo := by decide) (hw : lo + 1 ≤ 32 := by decide) :
    Packs (v ||| bitAt lo b) (lo + 1) (n + 2 ^ lo * b.toNat) := by
  simpa [Machine.bitAt] using h.fieldAt lo (BitVec.ofBool b) hk hw

theorem Packs.countAt {v : Word} {k n c w : Nat} (h : Packs v k n) (lo : Nat) (hc : c < 2 ^ w)
    (hk : k ≤ lo := by decide) (hw : lo + w ≤ 32 := by decide) :
    Packs (v ||| countAt w lo c) (lo + w) (n + 2 ^ lo * c) := by
  simpa [Machine.countAt, Nat.mod_eq_of_lt hc] using h.fieldAt lo (BitVec.ofNat w c) hk hw

/-! ## Writes to ADDR, STATUS and CTRL -/

/-- Settles O39: a write to ADDR. -/
theorem addrWrites : Obligations.AddrWrites := by
  intro s v hw
  have he : runEvent (.hostWrite 0x00C 4 v) s = .next (writeAddr v s) := runEvent_hostWrite_reg .addr v s
  have hhw : (byteOf v 0).toNat = v.toNat % 256 := by simp [byteOf_toNat]
  have hlog : (byteOf v 8).toNat = v.toNat / 256 % 256 := by simp [byteOf_toNat]
  refine ⟨fun hen => ?_, fun hen => ⟨_, he, ?_, ?_, ?_⟩⟩
  · rw [he, writeAddr, if_pos hen, raiseAccessErr]
  · simp [writeAddr, hen]
  · have hb : byteOf v 0 = bcastAddr ↔ v.toNat % 256 = 255 := by rw [← BitVec.toNat_inj, hhw]; rfl
    simp only [writeAddr, hen, Bool.false_eq_true, if_false, hb]
    split <;> simp [hhw]
  · cases hr : inRange s (byteOf v 8)
    · have hge := (inRange_false_iff hw _).1 hr
      simp [writeAddr, hen, hr, hlog ▸ hge]
    · have hlt := (inRange_iff hw _).1 hr
      simp [writeAddr, hen, hr, hlog, Nat.not_le.2 (hlog ▸ hlt)]

/-- The W1C flags stand at bits 0 and 2 to 7 of STATUS (R27). -/
theorem statusWord_flags (s : State) :
    (statusWord s).getLsbD 0 = s.flags.txDone ∧ (statusWord s).getLsbD 2 = s.flags.topoChanged ∧
      (statusWord s).getLsbD 3 = s.flags.rxError ∧ (statusWord s).getLsbD 4 = s.flags.seqMismatch ∧
      (statusWord s).getLsbD 5 = s.flags.rtcLatch ∧ (statusWord s).getLsbD 6 = s.flags.ctcLatch ∧
      (statusWord s).getLsbD 7 = s.flags.accessErr := by
  simp [-BitVec.getLsbD_eq_getElem, statusWord, bitAt_getLsbD, fieldAt_getLsbD_outside]

/-- A write to STATUS clears the W1C flags whose bit is written 1 (R28). -/
theorem statusWord_writeStatus_flags (v : Word) (s : State) :
    ∀ i ∈ [0, 2, 3, 4, 5, 6, 7], (statusWord (writeStatus v s)).getLsbD i = ((statusWord s).getLsbD i && !v.getLsbD i) := by
  simp only [List.forall_mem_cons, statusWord_flags]
  exact ⟨rfl, rfl, rfl, rfl, rfl, rfl, rfl, by simp⟩

/-- A write to STATUS leaves every bit outside the W1C flags and ARQ_STATE. -/
theorem statusWord_writeStatus_rest (v : Word) (s : State) {i : Nat} (hi : i ∉ [0, 2, 3, 4, 5, 6, 7, 12, 13]) :
    (statusWord (writeStatus v s)).getLsbD i = (statusWord s).getLsbD i := by
  simp only [List.mem_cons, List.not_mem_nil, or_false, not_or] at hi
  obtain ⟨h0, h2, h3, h4, h5, h6, h7, h12, h13⟩ := hi
  have harq (q : ArqState) : (fieldAt 12 (arqStateBits q)).getLsbD i = false :=
    fieldAt_getLsbD_outside _ (by omega)
  simp [statusWord, writeStatus, bitAt_getLsbD, *]

/-- Settles O40: a write to STATUS. -/
theorem statusWritesClear : Obligations.StatusWritesClear := by
  intro s v
  refine ⟨writeStatus v s, runEvent_hostWrite_reg .status v s, rfl, ?_, statusWord_writeStatus_flags v s,
    fun i => statusWord_writeStatus_rest v s⟩
  simp only [writeStatus, getLsbD_zero_iff]

/-- The body of ARQ_ABORT, case by case (R166). -/
theorem abortSend_idleish {s : State} (h : s.tx.arqState = .idle ∨ s.tx.arqState = .done) : abortSend s = s := by
  unfold abortSend; rcases h with h | h <;> rw [h]

theorem abortSend_awaitAck {s : State} (h : s.tx.arqState = .awaitAck) : abortSend s = endSend .aborted s := by
  unfold abortSend; rw [h]

theorem abortSend_pending {s : State} (h : s.tx.arqState = .sendingFragment) (hp : s.port.dataPending = true) :
    abortSend s = endSend .aborted { s with port.dataPending := false } := by
  unfold abortSend; rw [h]; simp only [hp, if_true]

theorem abortSend_inFlight {s : State} (h : s.tx.arqState = .sendingFragment) (hp : s.port.dataPending = false) :
    abortSend s = { s with port.abortPending := true } := by
  unfold abortSend; rw [h]; simp [hp]

/-- ARQ_ABORT's body changes ARQ_STATE, TX_RESULT, TX_DONE and the pending marks only. -/
theorem abortSend_frame (s : State) : abortSend s = { s with
    tx.arqState := (abortSend s).tx.arqState, txResult := (abortSend s).txResult
    flags.txDone := (abortSend s).flags.txDone
    port := { s.port with
      dataPending := (abortSend s).port.dataPending, abortPending := (abortSend s).port.abortPending } } := by
  unfold abortSend
  split
  · rfl
  · rfl
  · rfl
  · split <;> rfl

/-- Clearing ENABLE is ARQ_ABORT's body, which does nothing unless a send is active, and the loss of a waiting ACK. -/
theorem disableEffects_eq (s : State) : disableEffects s = { abortSend s with port.ackPending := false } := by
  unfold disableEffects
  by_cases h : s.tx.arqState = .sendingFragment ∨ s.tx.arqState = .awaitAck
  · simp only [if_pos h]
  · have hi : s.tx.arqState = .idle ∨ s.tx.arqState = .done := by revert h; cases s.tx.arqState <;> simp
    simp only [if_neg h, abortSend_idleish hi]

/-- CTRL holds what was written, whatever clearing ENABLE does. -/
theorem writeCtrl_ctrl (v : Word) (s : State) :
    (writeCtrl v s).ctrl = { enable := v.getLsbD 0, seqCheck := v.getLsbD 1, txMode := v.getLsbD 2 } := by
  unfold writeCtrl
  dsimp only
  split
  · rw [disableEffects_eq, abortSend_frame]
  · rfl

/-- CTRL shows the written bits 2:0 (R25). -/
theorem ctrlWord_eq (v : Word) : bitAt 0 (v.getLsbD 0) ||| bitAt 1 (v.getLsbD 1) ||| bitAt 2 (v.getLsbD 2) = v &&& 7 := by
  have hmask : ∀ i < 32, (7 : Word).getLsbD i = (decide (i = 0) || decide (i = 1) || decide (i = 2)) := by decide
  apply BitVec.eq_of_getLsbD_eq
  intro i hi
  have hbit (k : Nat) : (decide (i = k) && v.getLsbD k) = (v.getLsbD i && decide (i = k)) := by
    by_cases h : i = k <;> simp [h]
  simp only [BitVec.getLsbD_or, BitVec.getLsbD_and, bitAt_getLsbD, Nat.reduceLT, hbit, hmask i hi, Bool.and_or_distrib_left]

theorem readReg_ctrl_writeCtrl (v : Word) (s : State) : readReg (writeCtrl v s) .ctrl = v &&& 7 := by
  rw [readReg, writeCtrl_ctrl]; exact ctrlWord_eq v

/-- A write to CTRL that does not clear ENABLE changes CTRL only. -/
theorem writeCtrl_keeping {v : Word} {s : State} (h : s.ctrl.enable = false ∨ v.toNat % 2 = 1) :
    writeCtrl v s = { s with ctrl := (writeCtrl v s).ctrl } := by
  have hn : ¬ (s.ctrl.enable = true ∧ v.getLsbD 0 = false) := by
    rintro ⟨hen, hv⟩
    rw [← getLsbD_zero_iff, hen, hv] at h
    simp at h
  rw [writeCtrl_ctrl, writeCtrl, if_neg hn]

/-- A write to CTRL that clears ENABLE. -/
theorem writeCtrl_clearing {v : Word} {s : State} (hen : s.ctrl.enable = true) (hv : v.toNat % 2 = 0) :
    writeCtrl v s = disableEffects { s with ctrl := (writeCtrl v s).ctrl } := by
  have h0 : v.getLsbD 0 = false := by rw [← Bool.not_eq_true, getLsbD_zero_iff]; omega
  rw [writeCtrl_ctrl, writeCtrl, if_pos ⟨hen, h0⟩]

/-- Settles O41: a write to CTRL, by the state of the send it may abort. -/
theorem ctrlWrites : Obligations.CtrlWrites := by
  intro s v
  refine ⟨writeCtrl v s, runEvent_hostWrite_reg .ctrl v s, readReg_ctrl_writeCtrl v s, writeCtrl_keeping, ?_⟩
  intro hen hv
  have hclear := writeCtrl_clearing hen hv
  rw [disableEffects_eq] at hclear
  refine ⟨fun hi => ?_, fun ha => ?_, fun hs hp => ?_, fun hs hp => ?_⟩
  · rwa [abortSend_idleish (by exact hi)] at hclear
  · rwa [abortSend_awaitAck (by exact ha)] at hclear
  · rwa [abortSend_pending (by exact hs) (by exact hp)] at hclear
  · rwa [abortSend_inFlight (by exact hs) (by exact hp)] at hclear

/-! ## Reads -/

/-- Settles O60: a read answers the register, and each register packs its fields side by side. -/
theorem registerReadsShowTheFields : Obligations.RegisterReadsShowTheFields := by
  refine ⟨fun s q hq => ?_, fun s hw hr => ?_⟩
  · have hmap : q.1 = BitVec.ofNat 10 (regOffset q.2) := by
      revert q; decide
    rw [hmap]; exact runEvent_hostRead_reg q.2 s
  have := hr.allocLen; have := hr.sendLen; have := hr.nfrag; have := hr.fragIdx; have := hr.rxOffset
  have := hr.fbufRxLen; have := hr.unstuffedLen; have := hr.resultFragsDone; have := hr.resultNfrag
  have := wf_nodes hw
  refine ⟨?_, ?_, ?_, ?_, ?_, rfl, rfl, rfl, rfl, ?_, ?_, ?_, ?_, ?_, ?_, ?_, rfl, ?_, ?_, rfl, rfl, rfl, rfl⟩
  · exact (((packs_countAt (by omega)).countAt 8 (by decide)).countAt 16 (by decide)).countAt 24 (by decide) |>.toNat
  · exact ((packs_fieldAt _).fieldAt 8 _).fieldAt 16 _ |>.toNat
  · exact ((packs_bitAt _).bitAt 1 _).bitAt 2 _ |>.toNat
  · exact (packs_fieldAt _).fieldAt 8 _ |>.toNat
  · exact (packs_fieldAt _).toNat
  · refine ((packs_fieldAt _).fieldAt 8 _).toNat.trans ?_
    cases s.cmdStatus.code <;> rfl
  · refine (((packs_fieldAt _).countAt 8 (by omega)).countAt 12 (by omega)).toNat.trans ?_
    cases s.txResult.code <;> rfl
  · exact ((packs_fieldAt _).fieldAt 16 _).toNat
  · exact ((packs_fieldAt _).fieldAt 8 _).toNat
  · exact (((((packs_fieldAt _).fieldAt 8 _).fieldAt 16 _).bitAt 20 _).bitAt 21 _).countAt 24 (by omega) |>.toNat
  · refine (((packs_fieldAt _).countAt 8 (by omega)).countAt 16 (by omega)).toNat.trans ?_
    cases s.rxEvent.event <;> rfl
  · refine (((((packs_fieldAt _).fieldAt 4 _).fieldAt 8 _).bitAt 12 _).bitAt 13 _).toNat.trans ?_
    cases s.pktStatus.vcode <;> cases s.pktStatus.action <;> rfl
  · exact (((packs_fieldAt _).countAt 16 (by omega)).fieldAt 24 _).toNat
  · exact (((((packs_fieldAt _).countAt 8 (by omega)).countAt 16 (by omega)).countAt 24 (by omega)).bitAt 27 _).toNat

end Sys2Proof.Machine
end

section
/-! The frame of every command: which fields it may change, by group of commands, and which bytes it may store. -/

namespace Sys2Proof.Machine

/-! ## Frames of the operations on records -/

/-- From `s` to `t` only records, the parser's report, TOPO_CHANGED, RESULT and CMD_STATUS may have changed. -/
def ChangesRecordsOnly (s t : State) : Prop := t = { s with
  result := t.result, cmdStatus := t.cmdStatus, pktStatus := t.pktStatus, ls := t.ls, nb := t.nb
  flags.topoChanged := t.flags.topoChanged }

theorem ChangesRecordsOnly.trans {s t u : State} (h : ChangesRecordsOnly s t) (h' : ChangesRecordsOnly t u) :
    ChangesRecordsOnly s u := by
  unfold ChangesRecordsOnly at *
  rw [h', h]

theorem ChangesRecordsOnly.finishResult {i : Instr} {v : Word} {s t u : State} (h : ChangesRecordsOnly s t)
    (hu : finishResult i v t = .next u) : ChangesRecordsOnly s u := by
  rw [finishResult_next] at hu
  exact h.trans (hu ▸ rfl)

theorem raiseCmdError_changesRecordsOnly {i : Instr} {code : CmdCode} {s t : State}
    (h : raiseCmdError i code s = .next t) : ChangesRecordsOnly s t := by
  rw [raiseCmdError_next] at h
  exact h ▸ rfl

theorem notifyPingResponse_changesRecordsOnly (phys l : Byte) (s : State) :
    ChangesRecordsOnly s (notifyPingResponse phys l s).2 := by
  rw [ChangesRecordsOnly, notifyPingResponse_frame]

theorem parsePacket_changesRecordsOnly (p : List Byte) (ph : Byte) (s : State) :
    ChangesRecordsOnly s (parsePacket p ph s).2 := by
  rw [ChangesRecordsOnly, parsePacket_frame]

theorem ageLs_changesRecordsOnly (e : Half) (acc : State × Nat) (a : Nat) :
    ChangesRecordsOnly acc.1 (ageLs e acc a).1 := by
  unfold ageLs
  dsimp only
  split_ifs <;> rfl

theorem ageNb_changesRecordsOnly (e : Half) (acc : State × Nat) (a : Nat) :
    ChangesRecordsOnly acc.1 (ageNb e acc a).1 := by
  unfold ageNb
  dsimp only
  split_ifs <;> rfl

/-- What every turn of a loop over the records keeps, the loop keeps. -/
theorem foldl_keeps {R : State → State → Prop} (hrefl : ∀ s, R s s) (htrans : ∀ {s t u}, R s t → R t u → R s u)
    {f : State × Nat → Nat → State × Nat} (hf : ∀ acc a, R acc.1 (f acc a).1) (l : List Nat) (s : State) (n : Nat) :
    R s (l.foldl f (s, n)).1 :=
  List.foldlRecOn (motive := fun acc => R s acc.1) l f (hrefl s) fun acc h a _ => htrans h (hf acc a)

theorem ageLsAll_changesRecordsOnly (e : Half) (s : State) : ChangesRecordsOnly s (ageLsAll e s).1 :=
  foldl_keeps (R := ChangesRecordsOnly) (fun _ => rfl) .trans (ageLs_changesRecordsOnly e) _ s 0

theorem ageNbAll_changesRecordsOnly (e : Half) (s : State) : ChangesRecordsOnly s (ageNbAll e s).1 :=
  foldl_keeps (R := ChangesRecordsOnly) (fun _ => rfl) .trans (ageNb_changesRecordsOnly e) _ s 0

/-! ## AGE and NOTIFY_PING_RESPONSE as their parts -/

theorem execAge_eq (s : State) : execAge s =
    finishResult .age
      (countAt 8 0 (ageLsAll (arg0Half s) s).2 ||| countAt 8 8 (ageNbAll (arg0Half s) (ageLsAll (arg0Half s) s).1).2)
      (ageNbAll (arg0Half s) (ageLsAll (arg0Half s) s).1).1 := rfl

theorem execNotifyPingResponse_eq (s : State) : execNotifyPingResponse s =
    finishResult .notifyPingResponse
      (bitAt 0 (notifyPingResponse (arg0Low s) (arg0High s) s).1.acc
        ||| bitAt 1 (notifyPingResponse (arg0Low s) (arg0High s) s).1.topo)
      (notifyPingResponse (arg0Low s) (arg0High s) s).2 := rfl

/-- PARSE_PACKET ends in an error, or in the parser's state with a RESULT. -/
theorem execParsePacket_next {s t : State} (h : execParsePacket s = .next t) :
    (∃ code, raiseCmdError .parsePacket code s = .next t) ∨
      ∃ v, finishResult .parsePacket v
        (parsePacket (bufBytes s.mem .pbufTx 0 (arg0Low s).toNat) (arg0High s) s).2 = .next t := by
  unfold execParsePacket at h
  dsimp only at h
  split_ifs at h
  · exact .inl ⟨_, h⟩
  · exact .inl ⟨_, h⟩
  · exact .inr ⟨_, h⟩

/-! ## Frames of the commands, by group -/

section

variable {s t : State}

/-- Every command belongs to one of the groups below. -/
theorem instr_group (i : Instr) :
    i ∈ [.nop, .cksumGen, .cksumVerify, .areNodesLinked, .isDeviceOnline, .readNbRecord] ∨ i = .readLsRecord ∨
      i ∈ [.parsePacket, .notifyPingResponse, .age, .setOwnSeq] ∨ i ∈ [.txAlloc, .txDiscard] ∨ i = .rxRelease ∨
      i = .arqAbort ∨ i = .arqSend ∨ i ∈ [.stuff, .unstuff] ∨ i = .softReset := by
  cases i <;> decide

/-- A checksum command and a query write RESULT and CMD_STATUS only. -/
theorem exec_query_frame {i : Instr} (h : exec i s = .next t)
    (hi : i ∈ [.nop, .cksumGen, .cksumVerify, .areNodesLinked, .isDeviceOnline, .readNbRecord]) :
    t = { s with result := t.result, cmdStatus := t.cmdStatus } := by
  simp only [List.mem_cons, List.not_mem_nil, or_false] at hi
  rcases hi with rfl | rfl | rfl | rfl | rfl | rfl
  · rw [(finishOk_next .nop s t).1 h]
  · simp only [exec, execCksumGen] at h
    split at h
    · rw [(raiseCmdError_next ..).1 h]
    · split at h
      · rw [(raiseCmdError_next ..).1 h]
      · rw [(finishResult_next ..).1 h]
  · simp only [exec, execCksumVerify] at h
    split at h
    · rw [(raiseCmdError_next ..).1 h]
    · split at h
      · rw [(raiseCmdError_next ..).1 h]
      · rw [(finishResult_next ..).1 h]
  · rw [(finishResult_next .areNodesLinked _ s t).1 h]
  · rw [(finishResult_next .isDeviceOnline _ s t).1 h]
  · simp only [exec, execReadNbRecord] at h
    split at h
    · rw [(raiseCmdError_next ..).1 h]
    · rw [(finishResult_next ..).1 h]

theorem exec_readLsRecord_frame (h : exec .readLsRecord s = .next t) :
    t = { s with result := t.result, mask := t.mask, cmdStatus := t.cmdStatus } := by
  simp only [exec, execReadLsRecord] at h
  split at h
  · rw [(raiseCmdError_next ..).1 h]
  · rw [(finishResult_next ..).1 h]

theorem exec_record_frame {i : Instr} (h : exec i s = .next t)
    (hi : i ∈ [.parsePacket, .notifyPingResponse, .age, .setOwnSeq]) : ChangesRecordsOnly s t := by
  simp only [List.mem_cons, List.not_mem_nil, or_false] at hi
  rcases hi with rfl | rfl | rfl | rfl
  · rcases execParsePacket_next h with ⟨_, h⟩ | ⟨_, h⟩
    · exact raiseCmdError_changesRecordsOnly h
    · exact (parsePacket_changesRecordsOnly _ _ s).finishResult h
  · rw [exec, execNotifyPingResponse_eq] at h
    exact (notifyPingResponse_changesRecordsOnly _ _ s).finishResult h
  · rw [exec, execAge_eq] at h
    exact ((ageLsAll_changesRecordsOnly _ s).trans (ageNbAll_changesRecordsOnly _ _)).finishResult h
  · rw [exec, execSetOwnSeq, finishOk_next] at h
    rw [h]; rfl

theorem exec_txBuffer_frame {i : Instr} (h : exec i s = .next t) (hi : i ∈ [.txAlloc, .txDiscard]) :
    t = { s with
      tx := { s.tx with txOwned := t.tx.txOwned, allocLen := t.tx.allocLen }, cmdStatus := t.cmdStatus } := by
  simp only [List.mem_cons, List.not_mem_nil, or_false] at hi
  rcases hi with rfl | rfl
  · simp only [exec, execTxAlloc] at h
    split_ifs at h
    · rw [(raiseCmdError_next ..).1 h]
    · rw [(raiseCmdError_next ..).1 h]
    · rw [(raiseCmdError_next ..).1 h]
    · rw [(finishOk_next ..).1 h]
  · simp only [exec, execTxDiscard] at h
    split at h
    · rw [(raiseCmdError_next ..).1 h]
    · rw [(finishOk_next ..).1 h]

theorem exec_rxRelease_frame (h : exec .rxRelease s = .next t) :
    t = { s with rx := { t.rx with fbufRxLen := s.rx.fbufRxLen }, cmdStatus := t.cmdStatus } := by
  simp only [exec, execRxRelease] at h
  split at h
  · rw [(finishOk_next ..).1 h]
  · rw [(finishOk_next ..).1 h]

theorem exec_arqAbort_frame (h : exec .arqAbort s = .next t) :
    t = { s with
      tx.arqState := t.tx.arqState, txResult := t.txResult, flags.txDone := t.flags.txDone
      port := { s.port with dataPending := t.port.dataPending, abortPending := t.port.abortPending }
      cmdStatus := t.cmdStatus } := by
  rw [exec, execArqAbort, finishOk_next, abortSend_frame] at h
  rw [h]

/-- ARQ_SEND ends in an error, or with its first fragment built. -/
theorem execArqSend_next (h : execArqSend s = .next t) :
    (∃ code, raiseCmdError .arqSend code s = .next t) ∨
      finishOk .arqSend { buildFragment (startSend s) with tx.arqState := .sendingFragment } = .next t := by
  unfold execArqSend at h
  split at h
  · exact .inl ⟨_, h⟩
  · exact .inr h

theorem exec_arqSend_frame (h : exec .arqSend s = .next t) :
    t = { s with
      mem := t.mem, tx := { t.tx with allocLen := s.tx.allocLen }, txResult := t.txResult
      flags.txDone := t.flags.txDone, ack.latched := t.ack.latched
      port := { s.port with
        dataPending := t.port.dataPending, fbufTxLen := t.port.fbufTxLen, abortPending := t.port.abortPending }
      cmdStatus := t.cmdStatus } := by
  rcases execArqSend_next h with ⟨_, h⟩ | h
  · rw [(raiseCmdError_next ..).1 h]
  · rw [(finishOk_next ..).1 h]
    rfl

/-- STUFF and UNSTUFF store one string at the start of FBUF_TX, or nothing. -/
theorem exec_codec_next {i : Instr} (h : exec i s = .next t) (hi : i ∈ [.stuff, .unstuff]) :
    t = { s with result := t.result, cmdStatus := t.cmdStatus } ∨
      ∃ w, t = { writeBuf s .fbufTx 0 w with result := t.result, cmdStatus := t.cmdStatus } := by
  simp only [List.mem_cons, List.not_mem_nil, or_false] at hi
  rcases hi with rfl | rfl
  · simp only [exec, execStuff] at h
    split_ifs at h
    · left; rw [(raiseCmdError_next ..).1 h]
    · left; rw [(raiseCmdError_next ..).1 h]
    · left; rw [(raiseCmdError_next ..).1 h]
    · exact .inr ⟨_, by rw [(finishResult_next ..).1 h]⟩
  · simp only [exec, execUnstuff] at h
    split_ifs at h
    · left; rw [(raiseCmdError_next ..).1 h]
    · left; rw [(raiseCmdError_next ..).1 h]
    · left; rw [(raiseCmdError_next ..).1 h]
    · split at h
      · exact .inr ⟨_, by rw [(finishResult_next ..).1 h]⟩
      · left; rw [(finishResult_next ..).1 h]

theorem exec_codec_frame {i : Instr} (h : exec i s = .next t) (hi : i ∈ [.stuff, .unstuff]) :
    t = { s with mem := t.mem, result := t.result, cmdStatus := t.cmdStatus } := by
  rcases exec_codec_next h hi with ht | ⟨w, ht⟩
  · rw [ht]
  · rw [ht]; rfl

theorem exec_softReset_eq (h : exec .softReset s = .next t) : t = { softReset s with cmdStatus := t.cmdStatus } := by
  rw [exec, execSoftReset, finishOk_next] at h
  rw [h]

/-! ## What all commands leave -/

/-- No command but SOFT_RESET changes the parameters, the configuration, the operands, the counters, RX_INFO, RX_EVENT or
the agents. -/
theorem exec_frame {i : Instr} (h : exec i s = .next t) (hi : i ≠ .softReset) : t = { s with
    result := t.result, mask := t.mask, cmdStatus := t.cmdStatus, txResult := t.txResult, pktStatus := t.pktStatus
    flags := t.flags, tx := t.tx, port := t.port, ack := t.ack, rx := t.rx, mem := t.mem, ls := t.ls, nb := t.nb } := by
  rcases instr_group i with hq | rfl | hr | hb | rfl | rfl | rfl | hc | rfl
  · rw [exec_query_frame h hq]
  · rw [exec_readLsRecord_frame h]
  · rw [exec_record_frame h hr]
  · rw [exec_txBuffer_frame h hb]
  · rw [exec_rxRelease_frame h]
  · rw [exec_arqAbort_frame h]
  · rw [exec_arqSend_frame h]
  · rw [exec_codec_frame h hc]
  · exact absurd rfl hi

theorem exec_keeps_config {i : Instr} (h : exec i s = .next t) :
    t.params = s.params ∧ t.ctrl = s.ctrl ∧ t.addr = s.addr ∧ t.irqEn = s.irqEn ∧ t.arqCfg = s.arqCfg ∧
      t.ttlCfg = s.ttlCfg ∧ t.env = s.env := by
  by_cases hi : i = .softReset
  · subst hi
    rw [exec_softReset_eq h]
    exact ⟨rfl, rfl, rfl, rfl, rfl, rfl, rfl⟩
  · rw [exec_frame h hi]
    exact ⟨rfl, rfl, rfl, rfl, rfl, rfl, rfl⟩

theorem exec_keeps_operands {i : Instr} (h : exec i s = .next t) (hi : i ≠ .softReset) :
    t.arg0 = s.arg0 ∧ t.arg1 = s.arg1 ∧ t.counters = s.counters ∧ t.rxInfo = s.rxInfo ∧ t.rxEvent = s.rxEvent := by
  rw [exec_frame h hi]
  exact ⟨rfl, rfl, rfl, rfl, rfl⟩

/-- Only the commands on records, and SOFT_RESET, change a record. -/
theorem exec_keeps_records {i : Instr} (h : exec i s = .next t) (hi : i ≠ .softReset)
    (hr : i ∉ [.parsePacket, .notifyPingResponse, .age, .setOwnSeq]) : t.ls = s.ls ∧ t.nb = s.nb := by
  rcases instr_group i with hq | rfl | hr' | hb | rfl | rfl | rfl | hc | rfl
  · rw [exec_query_frame h hq]; exact ⟨rfl, rfl⟩
  · rw [exec_readLsRecord_frame h]; exact ⟨rfl, rfl⟩
  · exact absurd hr' hr
  · rw [exec_txBuffer_frame h hb]; exact ⟨rfl, rfl⟩
  · rw [exec_rxRelease_frame h]; exact ⟨rfl, rfl⟩
  · rw [exec_arqAbort_frame h]; exact ⟨rfl, rfl⟩
  · rw [exec_arqSend_frame h]; exact ⟨rfl, rfl⟩
  · rw [exec_codec_frame h hc]; exact ⟨rfl, rfl⟩
  · exact absurd rfl hi

/-- Only STUFF, UNSTUFF, ARQ_SEND and SOFT_RESET change memory. -/
theorem exec_keeps_mem {i : Instr} (h : exec i s = .next t) (hi : i ≠ .softReset)
    (hs : i ∉ [.stuff, .unstuff, .arqSend]) : t.mem = s.mem := by
  rcases instr_group i with hq | rfl | hr | hb | rfl | rfl | rfl | hc | rfl
  · rw [exec_query_frame h hq]
  · rw [exec_readLsRecord_frame h]
  · rw [exec_record_frame h hr]
  · rw [exec_txBuffer_frame h hb]
  · rw [exec_rxRelease_frame h]
  · rw [exec_arqAbort_frame h]
  · simp at hs
  · simp only [List.mem_cons, List.not_mem_nil] at hc hs; tauto
  · exact absurd rfl hi

/-- A buffer write leaves every byte outside the buffer's window, whatever the string. -/
theorem memRead_bufWrite_outside {m : Memory} (h : memWf m = true) (b : Buf) (off : Nat) (w : List Byte) {a : Nat}
    (ha : a < bufBase b ∨ bufBase b + bufSize b ≤ a) : memRead (bufWrite m b off w) a = memRead m a := by
  rw [bufWrite, memRead_memWriteBytes h, if_neg]
  rw [List.length_take]
  omega

/-- STUFF, UNSTUFF and ARQ_SEND store inside FBUF_TX only. -/
theorem exec_stores_in_fbufTx {i : Instr} (h : exec i s = .next t) (hm : memWf s.mem = true)
    (hi : i ∈ [.stuff, .unstuff, .arqSend]) {a : Nat} (ha : a < 0x300 ∨ 0x340 ≤ a) :
    memRead t.mem a = memRead s.mem a := by
  have hw (w : List Byte) : memRead (bufWrite s.mem .fbufTx 0 w) a = memRead s.mem a :=
    memRead_bufWrite_outside hm .fbufTx 0 w ha
  by_cases hc : i ∈ [.stuff, .unstuff]
  · rcases exec_codec_next h hc with ht | ⟨w, ht⟩
    · rw [ht]
    · rw [ht]; exact hw w
  · have hs : i = .arqSend := by simp only [List.mem_cons, List.not_mem_nil] at hc hi; tauto
    subst hs
    rcases execArqSend_next h with ⟨_, h⟩ | h
    · rw [(raiseCmdError_next ..).1 h]
    · rw [(finishOk_next ..).1 h]; exact hw _

end

/-- Settles O34: the frames of the groups, and what all commands leave. -/
theorem commandsLeaveTheRestAlone : Obligations.CommandsLeaveTheRestAlone := by
  intro i s t h
  refine ⟨exec_keeps_config h, exec_keeps_operands h, exec_query_frame h, ?_, exec_record_frame h,
    exec_txBuffer_frame h, ?_, ?_, ?_, exec_codec_frame h, fun hi hs a => by rw [exec_keeps_mem h hi hs],
    fun hm hi a => exec_stores_in_fbufTx h hm hi⟩
  · rintro rfl; exact exec_readLsRecord_frame h
  · rintro rfl; exact exec_rxRelease_frame h
  · rintro rfl; exact exec_arqAbort_frame h
  · rintro rfl; exact exec_arqSend_frame h

end Sys2Proof.Machine
end

section
/-! The record facts of R53, from the single record write up to the step. -/

namespace Sys2Proof.Machine

/-! ## What keeps the record facts -/

/-- From `s` to `t` the record facts of R53 are kept, and so is what they depend on: the own address and TTL_CFG. -/
structure RecordFactsKept (s t : State) : Prop where
  addr : t.addr = s.addr
  ttlCfg : t.ttlCfg = s.ttlCfg
  unknown : UnknownIsZero s → UnknownIsZero t
  live : LiveIsKnown s → LiveIsKnown t
  absent : s.ttlCfg.nbTtl ≠ 0 → ∀ a, AbsentHasNoPhys s a → AbsentHasNoPhys t a

/-- Records, own address and TTL_CFG are the same. -/
structure SameRecords (s t : State) : Prop where
  ls : t.ls = s.ls
  nb : t.nb = s.nb
  addr : t.addr = s.addr
  ttlCfg : t.ttlCfg = s.ttlCfg

theorem lsGet_congr {s t : State} (h : t.ls = s.ls) (a : Byte) : lsGet t a = lsGet s a := by rw [lsGet, lsGet, h]

theorem nbGet_congr {s t : State} (h : t.nb = s.nb) (a : Byte) : nbGet t a = nbGet s a := by rw [nbGet, nbGet, h]

theorem unknownIsZero_congr {s t : State} (hls : t.ls = s.ls) (ho : own t = own s) (h : UnknownIsZero s) :
    UnknownIsZero t := by
  intro a
  rw [lsGet_congr hls, ho]
  exact h a

theorem liveIsKnown_congr {s t : State} (hls : t.ls = s.ls) (h : LiveIsKnown s) : LiveIsKnown t := by
  intro a
  rw [lsGet_congr hls]
  exact h a

theorem absentHasNoPhys_congr {s t : State} (hnb : t.nb = s.nb) {a : Byte} (h : AbsentHasNoPhys s a) :
    AbsentHasNoPhys t a := by
  rw [AbsentHasNoPhys, nbGet_congr hnb]
  exact h

theorem SameRecords.kept {s t : State} (h : SameRecords s t) : RecordFactsKept s t where
  addr := h.addr
  ttlCfg := h.ttlCfg
  unknown := unknownIsZero_congr h.ls (congrArg AddrReg.myLogical h.addr)
  live := liveIsKnown_congr h.ls
  absent _ _ := absentHasNoPhys_congr h.nb

theorem RecordFactsKept.refl (s : State) : RecordFactsKept s s := SameRecords.kept ⟨rfl, rfl, rfl, rfl⟩

theorem RecordFactsKept.trans {s t u : State} (h : RecordFactsKept s t) (h' : RecordFactsKept t u) :
    RecordFactsKept s u where
  addr := h'.addr.trans h.addr
  ttlCfg := h'.ttlCfg.trans h.ttlCfg
  unknown := h'.unknown ∘ h.unknown
  live := h'.live ∘ h.live
  absent hne a := h'.absent (h.ttlCfg ▸ hne) a ∘ h.absent hne a

/-- The same, after a first part that leaves the records alone. -/
theorem RecordFactsKept.of_sameRecords {s t u : State} (h : RecordFactsKept t u) (hs : SameRecords s t) :
    RecordFactsKept s u := hs.kept.trans h

/-! ## One record written -/

/-- After a write a record is the one written or what it was (whether or not the address exists). -/
theorem lsGet_lsSet_cases (s : State) (a b : Byte) (r : LsRecord) :
    (b = a ∧ lsGet (lsSet s a r) b = r) ∨ lsGet (lsSet s a r) b = lsGet s b := by
  by_cases h : a.toNat < s.ls.length
  · rw [lsGet_lsSet s a b r h]
    by_cases hb : b = a <;> simp [hb]
  · right
    simp [lsGet, List.set_eq_of_length_le (Nat.not_lt.1 h)]

theorem nbGet_nbSet_cases (s : State) (a b : Byte) (r : NbRecord) :
    (b = a ∧ nbGet (nbSet s a r) b = r) ∨ nbGet (nbSet s a r) b = nbGet s b := by
  by_cases h : a.toNat < s.nb.length
  · rw [nbGet_nbSet s a b r h]
    by_cases hb : b = a <;> simp [hb]
  · right
    simp [nbGet, List.set_eq_of_length_le (Nat.not_lt.1 h)]

/-- Writing a link-state record that meets (a) and (b) wherever the state does. -/
theorem lsSet_kept {s : State} {a : Byte} {r : LsRecord}
    (hu : a ≠ own s → UnknownIsZero s → r.known = false → r = zeroLs)
    (hl : LiveIsKnown s → r.ttl ≠ 0 → r.known = true) : RecordFactsKept s (lsSet s a r) where
  addr := rfl
  ttlCfg := rfl
  unknown h b hb := by
    rcases lsGet_lsSet_cases s a b r with ⟨rfl, he⟩ | he <;> rw [he]
    · exact hu hb h
    · exact h b hb
  live h b := by
    rcases lsGet_lsSet_cases s a b r with ⟨rfl, he⟩ | he <;> rw [he]
    · exact hl h
    · exact h b
  absent _ _ := absentHasNoPhys_congr rfl

/-- Writing a neighbour record that meets (c) when NB_TTL_S is not 0. -/
theorem nbSet_kept {s : State} {a : Byte} {r : NbRecord} (hr : s.ttlCfg.nbTtl ≠ 0 → r.ttl = 0 → r.phys = 0) :
    RecordFactsKept s (nbSet s a r) where
  addr := rfl
  ttlCfg := rfl
  unknown := unknownIsZero_congr rfl rfl
  live := liveIsKnown_congr rfl
  absent hne b h := by
    rw [AbsentHasNoPhys]
    rcases nbGet_nbSet_cases s a b r with ⟨rfl, he⟩ | he <;> rw [he]
    · exact hr hne
    · exact h

theorem raiseTopo_kept (topo : Bool) (s : State) : RecordFactsKept s (raiseTopo topo s) :=
  SameRecords.kept ⟨rfl, rfl, rfl, rfl⟩

/-- A write to the own record that leaves KNOWN and TTL. -/
theorem ownRecord_kept {s : State} {r : LsRecord} (hk : r.known = (lsGet s (own s)).known)
    (ht : r.ttl = (lsGet s (own s)).ttl) : RecordFactsKept s (lsSet s (own s) r) :=
  lsSet_kept (fun hne => absurd rfl hne) fun h => by rw [hk, ht]; exact h (own s)

theorem setOwnMask_kept (m : Word) (s : State) : RecordFactsKept s (setOwnMask m s) := ownRecord_kept rfl rfl

/-! ## The parser and delivery -/

theorem acceptLinkState_kept (src sq : Byte) (list : List Byte) (action : RecAction) (s : State) :
    RecordFactsKept s (acceptLinkState src sq list action s).2 :=
  (lsSet_kept (fun _ _ hk => by simp at hk) (fun _ _ => rfl)).trans (raiseTopo_kept _ _)

theorem notifyLinkState_kept (src sq : Byte) (list : List Byte) (s : State) :
    RecordFactsKept s (notifyLinkState src sq list s).2 := by
  unfold notifyLinkState
  split_ifs
  · exact .refl s
  · exact .refl s
  · exact acceptLinkState_kept ..
  · exact acceptLinkState_kept ..
  · exact .refl s

theorem notifyPingResponse_kept (phys l : Byte) (s : State) : RecordFactsKept s (notifyPingResponse phys l s).2 := by
  unfold notifyPingResponse
  split
  · exact .refl s
  · exact ((nbSet_kept fun hne h => absurd h hne).trans (setOwnMask_kept _ _)).trans (raiseTopo_kept _ _)

theorem dispatchPacket_kept (p : List Byte) (ph : Byte) (s : State) : RecordFactsKept s (dispatchPacket p ph s).2 := by
  unfold dispatchPacket
  split
  · exact notifyLinkState_kept ..
  · exact notifyPingResponse_kept ..
  · exact .refl s

theorem parsePacket_kept (p : List Byte) (ph : Byte) (s : State) : RecordFactsKept s (parsePacket p ph s).2 := by
  have hrec : RecordFactsKept s (parseRecords p ph s).2 := by
    unfold parseRecords
    split
    · exact dispatchPacket_kept p ph s
    · exact .refl s
  unfold parsePacket
  generalize parseRecords p ph s = q at hrec ⊢
  exact hrec.trans (SameRecords.kept ⟨rfl, rfl, rfl, rfl⟩)

theorem deliverPacket_kept (len : Nat) (src : Byte) (bc : Bool) (s : State) :
    RecordFactsKept s (deliverPacket len src bc s) := by
  have hparse := parsePacket_kept (bufBytes s.mem .pbufRx 0 len) src s
  unfold deliverPacket
  generalize parsePacket (bufBytes s.mem .pbufRx 0 len) src s = q at hparse ⊢
  refine hparse.trans (SameRecords.kept ?_)
  dsimp only
  split_ifs <;> exact ⟨rfl, rfl, rfl, rfl⟩

/-! ## AGE -/

/-- A record that AGE counts down is live, so in (a) and (b) it is known. -/
theorem ageLs_kept (e : Half) (acc : State × Nat) (a : Nat) : RecordFactsKept acc.1 (ageLs e acc a).1 := by
  unfold ageLs
  dsimp only
  split_ifs with hlive hexp
  · exact (lsSet_kept (fun _ _ _ => rfl) (fun _ h => absurd rfl h)).trans (raiseTopo_kept _ _)
  · obtain ⟨hown, httl⟩ := hlive
    refine lsSet_kept (fun _ hz hk => ?_) fun hl _ => hl _ httl
    exact absurd (by rw [hz _ hown hk]; rfl) httl
  · exact .refl _

theorem ageNb_kept (e : Half) (acc : State × Nat) (a : Nat) : RecordFactsKept acc.1 (ageNb e acc a).1 := by
  unfold ageNb
  dsimp only
  split_ifs with hlive hexp
  · exact ((nbSet_kept fun _ _ => rfl).trans (setOwnMask_kept _ _)).trans (raiseTopo_kept _ _)
  · exact nbSet_kept fun _ h => absurd h hexp
  · exact .refl _

theorem ageLsAll_kept (e : Half) (s : State) : RecordFactsKept s (ageLsAll e s).1 :=
  foldl_keeps .refl .trans (ageLs_kept e) _ s 0

theorem ageNbAll_kept (e : Half) (s : State) : RecordFactsKept s (ageNbAll e s).1 :=
  foldl_keeps .refl .trans (ageNb_kept e) _ s 0

/-! ## Commands -/

theorem RecordFactsKept.finishResult {i : Instr} {v : Word} {s t u : State} (h : RecordFactsKept s t)
    (hu : finishResult i v t = .next u) : RecordFactsKept s u := by
  rw [finishResult_next] at hu
  exact h.trans (SameRecords.kept (hu ▸ ⟨rfl, rfl, rfl, rfl⟩))

/-- Every command but SOFT_RESET keeps the record facts. -/
theorem exec_kept {i : Instr} {s t : State} (h : exec i s = .next t) (hi : i ≠ .softReset) : RecordFactsKept s t := by
  by_cases hr : i ∈ [.parsePacket, .notifyPingResponse, .age, .setOwnSeq]
  · simp only [List.mem_cons, List.not_mem_nil, or_false] at hr
    rcases hr with rfl | rfl | rfl | rfl
    · rcases execParsePacket_next h with ⟨_, h⟩ | ⟨_, h⟩
      · rw [raiseCmdError_next] at h
        exact SameRecords.kept (h ▸ ⟨rfl, rfl, rfl, rfl⟩)
      · exact (parsePacket_kept _ _ s).finishResult h
    · rw [exec, execNotifyPingResponse_eq] at h
      exact (notifyPingResponse_kept _ _ s).finishResult h
    · rw [exec, execAge_eq] at h
      exact ((ageLsAll_kept _ s).trans (ageNbAll_kept _ _)).finishResult h
    · rw [exec, execSetOwnSeq, finishOk_next] at h
      have hown := ownRecord_kept (s := s) (r := { lsGet s (own s) with seq := arg0Low s }) rfl rfl
      exact hown.trans (SameRecords.kept (h ▸ ⟨rfl, rfl, rfl, rfl⟩))
  · obtain ⟨hls, hnb⟩ := exec_keeps_records h hi hr
    obtain ⟨-, -, haddr, -, -, httl, -⟩ := exec_keeps_config h
    exact SameRecords.kept ⟨hls, hnb, haddr, httl⟩

/-! ## The sender and the receive path -/

theorem SameRecords.trans {s t u : State} (h : SameRecords s t) (h' : SameRecords t u) : SameRecords s u :=
  ⟨h'.ls.trans h.ls, h'.nb.trans h.nb, h'.addr.trans h.addr, h'.ttlCfg.trans h.ttlCfg⟩

theorem arqCheckAck_sameRecords (s : State) : SameRecords s (arqCheckAck s) := by
  unfold arqCheckAck advanceSend
  dsimp only
  split_ifs <;> exact ⟨rfl, rfl, rfl, rfl⟩

theorem txIssue_sameRecords (s : State) : SameRecords s (txIssue s) := by
  unfold txIssue
  split_ifs <;> exact ⟨rfl, rfl, rfl, rfl⟩

theorem dataCompletion_sameRecords (ok : Bool) (s : State) : SameRecords s (dataCompletion ok s) := by
  unfold dataCompletion
  split_ifs
  · exact ⟨rfl, rfl, rfl, rfl⟩
  · exact ⟨rfl, rfl, rfl, rfl⟩
  · exact ⟨rfl, rfl, rfl, rfl⟩
  · exact SameRecords.trans (t := { s with tx := { s.tx with arqState := .awaitAck, timer := 0 } }) ⟨rfl, rfl, rfl, rfl⟩
      (arqCheckAck_sameRecords _)

theorem txDone_sameRecords (ok : Bool) (s : State) : SameRecords s (txDone ok s) := by
  unfold txDone
  split
  · exact ⟨rfl, rfl, rfl, rfl⟩
  · exact ⟨rfl, rfl, rfl, rfl⟩
  · exact ⟨rfl, rfl, rfl, rfl⟩
  · exact SameRecords.trans (t := { s with port.txInflight := .none, env.txHeld := none }) ⟨rfl, rfl, rfl, rfl⟩
      (dataCompletion_sameRecords ok _)

theorem msTick_sameRecords (s : State) : SameRecords s (msTick s) := by
  unfold msTick
  dsimp only
  split_ifs <;> exact ⟨rfl, rfl, rfl, rfl⟩

theorem dropFrame_sameRecords (ev : RxCode) (s : State) : SameRecords s (dropFrame ev s) := ⟨rfl, rfl, rfl, rfl⟩

theorem rxAccept_kept (x : List Byte) (s : State) : RecordFactsKept s (rxAccept x s) := by
  unfold rxAccept
  dsimp only
  split
  · refine (deliverPacket_kept ..).of_sameRecords ?_
    cases rxBcast x <;> exact ⟨rfl, rfl, rfl, rfl⟩
  · cases rxBcast x <;> exact SameRecords.kept ⟨rfl, rfl, rfl, rfl⟩

theorem rxCapacity_kept (x : List Byte) (s : State) : RecordFactsKept s (rxCapacity x s) := by
  unfold rxCapacity
  split
  · exact SameRecords.kept ⟨rfl, rfl, rfl, rfl⟩
  · exact rxAccept_kept x s

theorem rxSequence_kept (x : List Byte) (s : State) : RecordFactsKept s (rxSequence x s) := by
  unfold rxSequence
  dsimp only
  split_ifs
  · cases rxBcast x <;> exact SameRecords.kept ⟨rfl, rfl, rfl, rfl⟩
  · exact (rxCapacity_kept x _).of_sameRecords ⟨rfl, rfl, rfl, rfl⟩
  · exact rxCapacity_kept x s

theorem rxData_kept (x : List Byte) (s : State) : RecordFactsKept s (rxData x s) := by
  unfold rxData
  split
  · exact (dropFrame_sameRecords _ s).kept
  · exact rxSequence_kept x s

theorem rxControl_sameRecords (x : List Byte) (s : State) : SameRecords s (rxControl x s) := by
  unfold rxControl rxAck
  split_ifs
  · refine SameRecords.trans ?_ (arqCheckAck_sameRecords _)
    exact ⟨rfl, rfl, rfl, rfl⟩
  · exact ⟨rfl, rfl, rfl, rfl⟩
  · exact ⟨rfl, rfl, rfl, rfl⟩
  · exact dropFrame_sameRecords _ s

theorem rxChecks_kept (x : List Byte) (s : State) : RecordFactsKept s (rxChecks x s) := by
  unfold rxChecks rxClass
  split_ifs
  · exact (dropFrame_sameRecords _ s).kept
  · exact (dropFrame_sameRecords _ s).kept
  · exact (dropFrame_sameRecords _ s).kept
  · exact rxData_kept x s
  · exact (rxControl_sameRecords x s).kept

theorem rxFrame_kept (f : List Byte) (s : State) : RecordFactsKept s (rxFrame f s) := by
  unfold rxFrame
  dsimp only
  split
  · exact SameRecords.kept ⟨rfl, rfl, rfl, rfl⟩
  · exact (rxChecks_kept _ _).of_sameRecords ⟨rfl, rfl, rfl, rfl⟩

theorem rxTake_kept (s : State) : RecordFactsKept s (rxTake s) := by
  unfold rxTake
  split
  · split
    · exact (rxFrame_kept _ _).of_sameRecords ⟨rfl, rfl, rfl, rfl⟩
    · exact .refl s
  · exact .refl s

/-! ## Host writes and resets -/

theorem writeCtrl_sameRecords (v : Word) (s : State) : SameRecords s (writeCtrl v s) := by
  unfold writeCtrl
  dsimp only
  split
  · rw [disableEffects_eq, abortSend_frame]
    exact ⟨rfl, rfl, rfl, rfl⟩
  · exact ⟨rfl, rfl, rfl, rfl⟩

theorem writeAddr_records (v : Word) (s : State) : (writeAddr v s).ls = s.ls ∧ (writeAddr v s).nb = s.nb := by
  unfold writeAddr
  split <;> exact ⟨rfl, rfl⟩

/-- A write to a register other than CMD changes no record. -/
theorem writeReg_records {r : PortReg} {v : Word} {s t : State} (h : writeReg r v s = .next t) (hr : r ≠ .cmd) :
    t.ls = s.ls ∧ t.nb = s.nb := by
  cases r with
  | cmd => exact absurd rfl hr
  | ctrl =>
    cases h
    have hsame := writeCtrl_sameRecords v s
    exact ⟨hsame.ls, hsame.nb⟩
  | addr => cases h; exact writeAddr_records v s
  | _ => cases h; exact ⟨rfl, rfl⟩

theorem writeWindow_sameRecords (b : Buf) (i : Nat) (v : Word) (s : State) : SameRecords s (writeWindow b i v s) := by
  cases b with
  | pbufTx => unfold writeWindow; dsimp only; split <;> exact ⟨rfl, rfl, rfl, rfl⟩
  | _ => exact ⟨rfl, rfl, rfl, rfl⟩

theorem hostRead_sameRecords (off : BitVec 10) (size : Nat) (s : State) : SameRecords s (hostRead off size s) := by
  unfold hostRead
  split <;> exact ⟨rfl, rfl, rfl, rfl⟩

/-! ## Steps -/

/-- What the statement says of a step from `s` to `t`. -/
def RecordFactsAfter (s t : State) : Prop :=
  (own t = own s → UnknownIsZero s → UnknownIsZero t) ∧ (LiveIsKnown s → LiveIsKnown t) ∧
    (s.ttlCfg.nbTtl ≠ 0 → ∀ a, AbsentHasNoPhys s a → AbsentHasNoPhys t a)

theorem RecordFactsKept.after {s t : State} (h : RecordFactsKept s t) : RecordFactsAfter s t :=
  ⟨fun _ => h.unknown, h.live, h.absent⟩

/-- A step that changes no record, though perhaps ADDR or TTL_CFG. -/
theorem recordFactsAfter_of_records {s t : State} (h : t.ls = s.ls ∧ t.nb = s.nb) : RecordFactsAfter s t :=
  ⟨unknownIsZero_congr h.1, liveIsKnown_congr h.1, fun _ _ => absentHasNoPhys_congr h.2⟩

/-- A step after which every record is zero. -/
theorem recordFactsAfter_of_zero {s t : State} {n m : Nat} (hls : t.ls = List.replicate n zeroLs)
    (hnb : t.nb = List.replicate m zeroNb) : RecordFactsAfter s t := by
  have hl (a : Byte) : lsGet t a = zeroLs := by simp [lsGet, hls]
  have hn (a : Byte) : nbGet t a = zeroNb := by simp [nbGet, hnb]
  refine ⟨fun _ _ a _ _ => hl a, fun _ a h => ?_, fun _ a _ _ => by rw [hn]; rfl⟩
  rw [hl] at h
  exact absurd rfl h

theorem runCommand_recordFactsAfter {v : Word} {s t : State} (h : runCommand v s = .next t) : RecordFactsAfter s t := by
  unfold runCommand at h
  split at h
  · rename_i i _
    by_cases hi : i = .softReset
    · subst hi
      rw [exec_softReset_eq h]
      exact recordFactsAfter_of_zero rfl rfl
    · exact (exec_kept h hi).after
  · cases h
    exact recordFactsAfter_of_records ⟨rfl, rfl⟩

theorem hostWrite_recordFactsAfter {off : BitVec 10} {size : Nat} {v : Word} {s t : State}
    (h : hostWrite off size v s = .next t) : RecordFactsAfter s t := by
  unfold hostWrite at h
  split at h
  · split at h
    · rename_i r _
      by_cases hr : r = .cmd
      · subst hr
        exact runCommand_recordFactsAfter h
      · exact recordFactsAfter_of_records (writeReg_records h hr)
    · cases h
      exact (writeWindow_sameRecords ..).kept.after
    · cases h
      exact (RecordFactsKept.refl s).after
  · cases h
    exact recordFactsAfter_of_records ⟨rfl, rfl⟩

theorem runEvent_recordFactsAfter {e : Event} {s t : State} (h : runEvent e s = .next t) : RecordFactsAfter s t := by
  cases e with
  | hostWrite off size v => exact hostWrite_recordFactsAfter h
  | hostRead off size => cases h; exact (hostRead_sameRecords off size s).kept.after
  | rxOffer f => cases h; exact recordFactsAfter_of_records ⟨rfl, rfl⟩
  | rxTake => cases h; exact (rxTake_kept s).after
  | txIssue => cases h; exact (txIssue_sameRecords s).kept.after
  | txDone ok => cases h; exact (txDone_sameRecords ok s).kept.after
  | msTick => cases h; exact (msTick_sameRecords s).kept.after
  | hardReset => cases h; exact recordFactsAfter_of_zero rfl rfl

/-- Settles O5: a step is one event, and every event keeps the record facts. -/
theorem stepKeepsTheRecordFacts : Obligations.StepKeepsTheRecordFacts := by
  intro s t h
  obtain ⟨-, e, ag, n, hrun⟩ := step_next h
  -- The agenda and the event counter are no part of what the facts speak of.
  have hafter := runEvent_recordFactsAfter hrun
  exact hafter

end Sys2Proof.Machine
end

section
/-! The host port by what lies at an offset: windows, reserved words and read-only registers; the bytes of a window's word;
and what a plain register reads back. -/

namespace Sys2Proof.Machine

/-! ## The map, range by range -/

/-- A register's offset is the only one that the map takes to it (R22). -/
theorem portTarget_eq_reg_iff {off : BitVec 10} {r : PortReg} :
    portTarget off = .reg r ↔ off = BitVec.ofNat 10 (regOffset r) := by
  refine ⟨fun h => ?_, fun h => h ▸ portTarget_reg r⟩
  unfold portTarget at h
  split at h
  · rename_i r' hr
    cases h
    have heq : regOffset r = off.toNat := by simpa using List.find?_some hr
    rw [heq, BitVec.ofNat_toNat, BitVec.setWidth_eq]
  · split at h <;> cases h

/-- An offset inside a window is that byte of the buffer. -/
theorem portTarget_of_mem_window {off : BitVec 10} (b : Buf) (hlo : bufBase b ≤ off.toNat)
    (hhi : off.toNat < bufBase b + bufSize b) : portTarget off = .window b (off.toNat - bufBase b) := by
  have h := portTarget_window b (off.toNat - bufBase b) (by omega)
  rwa [Nat.add_sub_cancel' hlo, BitVec.ofNat_toNat, BitVec.setWidth_eq] at h

/-- The offsets above the registers and outside every window are reserved (R22, R44). -/
theorem portTarget_eq_reserved {off : BitVec 10} (hreg : 0x060 ≤ off.toNat)
    (hwin : ∀ b, ¬ (bufBase b ≤ off.toNat ∧ off.toNat < bufBase b + bufSize b)) : portTarget off = .reserved := by
  have hr : (allRegs.find? fun r => decide (regOffset r = off.toNat)) = none := by
    have hlt (r : PortReg) : regOffset r < 0x060 := by cases r <;> decide
    rw [List.find?_eq_none]
    intro r _ h
    have heq := of_decide_eq_true h
    have := hlt r
    omega
  have hb : (allBufs.find? fun b =>
      decide (bufBase b ≤ off.toNat) && decide (off.toNat < bufBase b + bufSize b)) = none := by
    rw [List.find?_eq_none]
    intro b _ h
    rw [Bool.and_eq_true, decide_eq_true_iff, decide_eq_true_iff] at h
    exact hwin b h
  simp only [portTarget, hr, hb]

/-! ## Accesses, by what lies at the offset -/

theorem accessOk_iff {off : BitVec 10} {size : Nat} : accessOk off size = true ↔ size = 4 ∧ off.toNat % 4 = 0 := by
  simp [accessOk]

/-- An aligned 32-bit read answers what lies at the offset (R71). -/
theorem runEvent_hostRead_aligned {off : BitVec 10} (ha : off.toNat % 4 = 0) (s : State) :
    runEvent (.hostRead off 4) s = .next { s with env.hostData := readPort s off } := by
  rw [runEvent, hostRead, if_pos (accessOk_iff.2 ⟨rfl, ha⟩)]

/-- An aligned 32-bit read of a buffer window. -/
theorem runEvent_hostRead_window (b : Buf) {w : Nat} (hw : 4 * w < bufSize b) (s : State) :
    runEvent (.hostRead (BitVec.ofNat 10 (bufBase b + 4 * w)) 4) s
      = .next { s with env.hostData := readWindow s.mem b (4 * w) } := by
  simp only [runEvent, hostRead, accessOk_window b w hw, readPort, portTarget_window b (4 * w) hw, if_true]

/-- An aligned 32-bit write to a buffer window. -/
theorem runEvent_hostWrite_window (b : Buf) {w : Nat} (hw : 4 * w < bufSize b) (v : Word) (s : State) :
    runEvent (.hostWrite (BitVec.ofNat 10 (bufBase b + 4 * w)) 4 v) s = .next (writeWindow b (4 * w) v s) := by
  simp only [runEvent, hostWrite, accessOk_window b w hw, portTarget_window b (4 * w) hw, if_true]

/-- An access that is not aligned, or not of 32 bits, only raises ACCESS_ERR (R74). -/
theorem runEvent_badAccess {off : BitVec 10} {size : Nat} (h : size ≠ 4 ∨ off.toNat % 4 ≠ 0) (v : Word) (s : State) :
    runEvent (.hostWrite off size v) s = .next (raiseAccessErr s) ∧
      runEvent (.hostRead off size) s = .next (raiseAccessErr { s with env.hostData := 0 }) := by
  have hbad : ¬ accessOk off size = true := by rw [accessOk_iff]; omega
  exact ⟨by rw [runEvent, hostWrite, if_neg hbad], by rw [runEvent, hostRead, if_neg hbad]⟩

/-- A write to a reserved word changes nothing (R44, R72). -/
theorem runEvent_hostWrite_reserved {off : BitVec 10} (ha : off.toNat % 4 = 0) (ht : portTarget off = .reserved)
    (v : Word) (s : State) : runEvent (.hostWrite off 4 v) s = .next s := by
  rw [runEvent, hostWrite, if_pos (accessOk_iff.2 ⟨rfl, ha⟩), ht]

/-- The registers that a write leaves as they are (R22). -/
def readOnlyRegs : List PortReg :=
  [.params, .framing, .result, .cmdStatus, .txResult, .rxInfo, .rxEvent, .pktStatus, .mask, .arqTimer, .txInfo,
   .rxFrameCount, .rxDropCount, .txFrameCount, .txRetryCount]

theorem writeReg_readOnly {r : PortReg} (hr : r ∈ readOnlyRegs) (v : Word) (s : State) : writeReg r v s = .next s := by
  cases r with
  | ctrl | addr | status | irqEn | cmd | arg0 | arg1 | arqCfg | ttlCfg => exact absurd hr (by decide)
  | _ => rfl

/-- A write at a read-only register's offset changes nothing. -/
theorem runEvent_hostWrite_readOnly {off : BitVec 10} (h : off.toNat ∈ readOnlyRegs.map regOffset) (v : Word) (s : State) :
    runEvent (.hostWrite off 4 v) s = .next s := by
  obtain ⟨r, hr, heq⟩ := List.mem_map.1 h
  have hoff : off = BitVec.ofNat 10 (regOffset r) := by rw [heq, BitVec.ofNat_toNat, BitVec.setWidth_eq]
  rw [hoff, runEvent_hostWrite_reg, writeReg_readOnly hr]

/-- Of the five buffers only PBUF_TX takes a write (R75). -/
theorem writeWindow_readOnly {b : Buf} (hb : b ≠ .pbufTx) (i : Nat) (v : Word) (s : State) : writeWindow b i v s = s := by
  cases b with
  | pbufTx => exact absurd rfl hb
  | _ => rfl

/-- A write to a window other than PBUF_TX's changes nothing. -/
theorem runEvent_hostWrite_readOnlyWindow {off : BitVec 10} (ha : off.toNat % 4 = 0) {b : Buf} (hb : b ≠ .pbufTx)
    (hlo : bufBase b ≤ off.toNat) (hhi : off.toNat < bufBase b + bufSize b) (v : Word) (s : State) :
    runEvent (.hostWrite off 4 v) s = .next s := by
  rw [runEvent, hostWrite, if_pos (accessOk_iff.2 ⟨rfl, ha⟩), portTarget_of_mem_window b hlo hhi]
  exact congrArg _ (writeWindow_readOnly hb _ v s)

/-- Settles O37: a bad access, then the aligned ones by the range of the map they fall in. -/
theorem accessesWithoutEffect : Obligations.AccessesWithoutEffect := by
  intro s off size v
  refine ⟨fun h => runEvent_badAccess h v s, fun ha => ?_⟩
  intro a reserved readOnly
  have hres : reserved → portTarget off = .reserved := fun h =>
    portTarget_eq_reserved (by omega) fun b => by cases b <;> simp only [bufBase, bufSize] <;> omega
  refine ⟨fun h => ?_, ?_⟩
  · rw [runEvent_hostRead_aligned ha, readPort, hres h]
  · rintro (h | h | h | h)
    · exact runEvent_hostWrite_reserved ha (hres h) v s
    · exact runEvent_hostWrite_readOnly h v s
    · exact runEvent_hostWrite_readOnlyWindow ha (b := .pbufRx) (by decide) h.1 h.2 v s
    · obtain ⟨hlo, hhi⟩ := h
      rcases Nat.lt_or_ge off.toNat 0x340 with h1 | h1
      · exact runEvent_hostWrite_readOnlyWindow ha (b := .fbufTx) (by decide) hlo h1 v s
      rcases Nat.lt_or_ge off.toNat 0x380 with h2 | h2
      · exact runEvent_hostWrite_readOnlyWindow ha (b := .fbufRx) (by decide) h1 h2 v s
      · exact runEvent_hostWrite_readOnlyWindow ha (b := .abuf) (by decide) h2 hhi v s

/-! ## Buffer windows -/

/-- Byte `i` of a window's word is byte `i` from there on (R73). -/
theorem readWindow_byte (m : Memory) (b : Buf) (k : Nat) {i : Nat} (hi : i < 4) :
    (readWindow m b k).toNat / 2 ^ (8 * i) % 256 = (bufRead m b (k + i)).toNat := by
  have hlt (j : Nat) : (bufRead m b j).toNat < 256 := (bufRead m b j).isLt
  have h0 := hlt k
  have h1 := hlt (k + 1)
  have h2 := hlt (k + 2)
  have h3 := hlt (k + 3)
  rw [readWindow, fieldAt_bytes_toNat]
  match i, hi with
  | 0, _ => simp only [Nat.add_zero]; omega
  | 1, _ => omega
  | 2, _ => omega
  | 3, _ => omega

/-- Settles O35: the read answers the window's word, whose bytes are the buffer's. -/
theorem windowReadsAreLittleEndian : Obligations.WindowReadsAreLittleEndian := fun s b w hw =>
  ⟨_, runEvent_hostRead_window b hw s, rfl, fun _ hi => readWindow_byte s.mem b (4 * w) hi⟩

/-- The bytes of a word, the lowest first, as a write to a window stores them (R73). -/
theorem wordBytes_getD (v : Word) {i : Nat} (hi : i < 4) :
    ([byteOf v 0, byteOf v 8, byteOf v 16, byteOf v 24].getD i memBackground).toNat = v.toNat / 2 ^ (8 * i) % 256 := by
  match i, hi with
  | 0, _ => exact byteOf_toNat v 0
  | 1, _ => exact byteOf_toNat v 8
  | 2, _ => exact byteOf_toNat v 16
  | 3, _ => exact byteOf_toNat v 24

theorem writeWindow_owned {s : State} (h : s.tx.txOwned = true) (i : Nat) (v : Word) :
    writeWindow .pbufTx i v s = writeBuf s .pbufTx i [byteOf v 0, byteOf v 8, byteOf v 16, byteOf v 24] := if_pos h

theorem writeWindow_notOwned {s : State} (h : s.tx.txOwned = false) (i : Nat) (v : Word) :
    writeWindow .pbufTx i v s = raiseAccessErr s := if_neg (by rw [h]; decide)

/-- Settles O36: a write to PBUF_TX, by who owns it. -/
theorem pbufTxWritesNeedOwnership : Obligations.PbufTxWritesNeedOwnership := by
  intro s w v hw e
  have hwin : 4 * w < bufSize .pbufTx := by rw [bufSize]; omega
  have he : runEvent e s = .next (writeWindow .pbufTx (4 * w) v s) := runEvent_hostWrite_window .pbufTx hwin v s
  refine ⟨fun hown => ?_, fun hown hm => ?_⟩
  · rw [he, writeWindow_notOwned hown, raiseAccessErr]
  · rw [writeWindow_owned hown] at he
    have hfit : 4 * w + [byteOf v 0, byteOf v 8, byteOf v 16, byteOf v 24].length ≤ bufSize .pbufTx := by
      simp only [bufSize, List.length_cons, List.length_nil]; omega
    refine ⟨_, he, rfl, fun i hi => ?_, fun a ha => ?_⟩
    · rw [writeBuf_mem, bufRead_bufWrite hm _ _ _ hfit, if_pos (by simpa using hi), Nat.add_sub_cancel_left,
        wordBytes_getD v hi]
    · rw [writeBuf_mem, memRead_bufWrite hm _ _ _ hfit, if_neg]
      simp only [bufBase, List.length_cons, List.length_nil]
      omega

/-! ## Registers that read back what was written -/

/-- A word that is the low `n` bits of `v` is `v` under the mask of those bits. -/
theorem eq_and_lowMask {x v : Word} (n : Nat) (h : x.toNat = v.toNat % 2 ^ n) (hn : n ≤ 32 := by decide) :
    x = v &&& BitVec.ofNat 32 (2 ^ n - 1) := by
  have hmask : 2 ^ n - 1 < 2 ^ 32 := by
    have := Nat.two_pow_pos n
    have := Nat.pow_le_pow_right (n := 2) (by decide) hn
    omega
  apply BitVec.eq_of_toNat_eq
  rw [h, BitVec.toNat_and, BitVec.toNat_ofNat, Nat.mod_eq_of_lt hmask, Nat.and_two_pow_sub_one_eq_mod]

/-- Settles O38: each register packs the written fields again, which are the low bits of the word. -/
theorem registerWritesReadBack : Obligations.RegisterWritesReadBack := by
  intro s v
  refine ⟨_, _, _, _, _, runEvent_hostWrite_reg .irqEn v s, ?_, rfl, runEvent_hostWrite_reg .arg0 v s, rfl, rfl,
    runEvent_hostWrite_reg .arg1 v s, rfl, rfl, runEvent_hostWrite_reg .arqCfg v s, ?_, rfl,
    runEvent_hostWrite_reg .ttlCfg v s, ?_, rfl⟩
  · refine eq_and_lowMask 8 ((packs_fieldAt (byteOf v 0)).toNat.trans ?_)
    rw [byteOf_toNat]; omega
  · refine eq_and_lowMask 24 (((packs_fieldAt (v.extractLsb' 0 16)).fieldAt 16 (byteOf v 16)).toNat.trans ?_)
    rw [byteOf_toNat, BitVec.extractLsb'_toNat]; omega
  · refine eq_and_lowMask 16 (((packs_fieldAt (byteOf v 0)).fieldAt 8 (byteOf v 8)).toNat.trans ?_)
    rw [byteOf_toNat, byteOf_toNat]; omega

end Sys2Proof.Machine
end

section
/-! PBUF_TX during a send: nothing the block does stores into its window, but for a host write while owned, and SOFT_RESET
and hardware reset, which clear it. -/

namespace Sys2Proof.Machine

/-- PBUF_TX holds the bytes `p`, in a memory of canonical form, which reading after a write rests on. -/
structure PbufTxHolds (p : Nat → Byte) (m : Memory) : Prop where
  canonical : memWf m = true
  bytes : ∀ i, bufRead m .pbufTx i = p i

/-- Storing into another buffer leaves PBUF_TX, whatever the string. -/
theorem PbufTxHolds.bufWrite {p : Nat → Byte} {m : Memory} (h : PbufTxHolds p m) {b : Buf} (hb : b ≠ .pbufTx) (off : Nat)
    (w : List Byte) : PbufTxHolds p (bufWrite m b off w) :=
  ⟨memWf_bufWrite h.canonical b off w, fun i => (bufRead_bufWrite_of_ne h.canonical hb.symm off w i).trans (h.bytes i)⟩

section

variable {p : Nat → Byte} {s t : State}

/-! ## The sender -/

theorem buildFragment_pbufTxHolds (h : PbufTxHolds p s.mem) : PbufTxHolds p (buildFragment s).mem :=
  h.bufWrite (by decide) 0 _

theorem advanceSend_pbufTxHolds (h : PbufTxHolds p s.mem) : PbufTxHolds p (advanceSend s).mem := by
  unfold advanceSend
  dsimp only
  split
  · exact h
  · exact buildFragment_pbufTxHolds h

theorem arqCheckAck_pbufTxHolds (h : PbufTxHolds p s.mem) : PbufTxHolds p (arqCheckAck s).mem := by
  unfold arqCheckAck
  split_ifs
  · exact advanceSend_pbufTxHolds h
  · exact h
  · exact h

theorem txIssue_pbufTxHolds (h : PbufTxHolds p s.mem) : PbufTxHolds p (txIssue s).mem := by
  unfold txIssue
  split_ifs <;> exact h

theorem dataCompletion_pbufTxHolds (ok : Bool) (h : PbufTxHolds p s.mem) : PbufTxHolds p (dataCompletion ok s).mem := by
  unfold dataCompletion
  split_ifs
  · exact h
  · exact h
  · exact h
  · exact arqCheckAck_pbufTxHolds h

theorem txDone_pbufTxHolds (ok : Bool) (h : PbufTxHolds p s.mem) : PbufTxHolds p (txDone ok s).mem := by
  unfold txDone
  split
  · exact h
  · exact h
  · exact h
  · exact dataCompletion_pbufTxHolds ok h

theorem msTick_pbufTxHolds (h : PbufTxHolds p s.mem) : PbufTxHolds p (msTick s).mem := by
  unfold msTick
  dsimp only
  split_ifs
  · exact buildFragment_pbufTxHolds h
  · exact h
  · exact h
  · exact h

/-! ## The receive path -/

/-- Delivery reads PBUF_RX and stores nothing. -/
theorem deliverPacket_pbufTxHolds (len : Nat) (src : Byte) (bc : Bool) (h : PbufTxHolds p s.mem) :
    PbufTxHolds p (deliverPacket len src bc s).mem := by
  have hmem (bytes : List Byte) : (parsePacket bytes src s).2.mem = s.mem := by rw [parsePacket_frame]
  unfold deliverPacket
  dsimp only
  split_ifs <;> exact (hmem _).symm ▸ h

theorem ackUnlessBcast_pbufTxHolds (bc : Bool) (d : Byte) (sq : Bool) (h : PbufTxHolds p s.mem) :
    PbufTxHolds p (ackUnlessBcast bc d sq s).mem := by
  cases bc with
  | true => exact h
  | false => exact h.bufWrite (by decide) 0 _

theorem rxAccept_pbufTxHolds (x : List Byte) (h : PbufTxHolds p s.mem) : PbufTxHolds p (rxAccept x s).mem := by
  have hdata : PbufTxHolds p (writeBuf s .pbufRx s.rx.offset (frameData x)).mem := h.bufWrite (by decide) _ _
  unfold rxAccept
  dsimp only
  split
  · exact deliverPacket_pbufTxHolds _ _ _ (ackUnlessBcast_pbufTxHolds _ _ _ hdata)
  · exact ackUnlessBcast_pbufTxHolds _ _ _ hdata

theorem rxCapacity_pbufTxHolds (x : List Byte) (h : PbufTxHolds p s.mem) : PbufTxHolds p (rxCapacity x s).mem := by
  unfold rxCapacity
  split
  · exact h
  · exact rxAccept_pbufTxHolds x h

theorem rxSequence_pbufTxHolds (x : List Byte) (h : PbufTxHolds p s.mem) : PbufTxHolds p (rxSequence x s).mem := by
  unfold rxSequence
  dsimp only
  split_ifs
  · exact ackUnlessBcast_pbufTxHolds _ _ _ h
  · exact rxCapacity_pbufTxHolds x h
  · exact rxCapacity_pbufTxHolds x h

theorem rxData_pbufTxHolds (x : List Byte) (h : PbufTxHolds p s.mem) : PbufTxHolds p (rxData x s).mem := by
  unfold rxData
  split
  · exact h
  · exact rxSequence_pbufTxHolds x h

theorem rxControl_pbufTxHolds (x : List Byte) (h : PbufTxHolds p s.mem) : PbufTxHolds p (rxControl x s).mem := by
  unfold rxControl rxAck
  split_ifs
  · exact arqCheckAck_pbufTxHolds h
  · exact h
  · exact h
  · exact h

theorem rxChecks_pbufTxHolds (x : List Byte) (h : PbufTxHolds p s.mem) : PbufTxHolds p (rxChecks x s).mem := by
  unfold rxChecks rxClass
  split_ifs
  · exact h
  · exact h
  · exact h
  · exact rxData_pbufTxHolds x h
  · exact rxControl_pbufTxHolds x h

theorem rxFrame_pbufTxHolds (f : List Byte) (h : PbufTxHolds p s.mem) : PbufTxHolds p (rxFrame f s).mem := by
  have hlatch : PbufTxHolds p (rxLatch f s).mem := h.bufWrite (by decide) 0 f
  unfold rxFrame
  dsimp only
  split
  · exact hlatch
  · exact rxChecks_pbufTxHolds _ hlatch

theorem rxTake_pbufTxHolds (h : PbufTxHolds p s.mem) : PbufTxHolds p (rxTake s).mem := by
  unfold rxTake
  split
  · split
    · exact rxFrame_pbufTxHolds _ h
    · exact h
  · exact h

/-! ## Commands and host accesses -/

/-- The one buffer that a command other than SOFT_RESET stores into is FBUF_TX. -/
theorem exec_pbufTxHolds {i : Instr} (hx : exec i s = .next t) (hi : i ≠ .softReset) (h : PbufTxHolds p s.mem) :
    PbufTxHolds p t.mem := by
  by_cases hc : i ∈ [.stuff, .unstuff]
  · rcases exec_codec_next hx hc with ht | ⟨w, ht⟩
    · rw [ht]; exact h
    · rw [ht]; exact h.bufWrite (by decide) 0 w
  by_cases hs : i = .arqSend
  · subst hs
    rcases execArqSend_next hx with ⟨_, hx⟩ | hx
    · rw [(raiseCmdError_next ..).1 hx]; exact h
    · rw [(finishOk_next ..).1 hx]; exact h.bufWrite (by decide) 0 _
  · have hmem : t.mem = s.mem := exec_keeps_mem hx hi (by simp only [List.mem_cons] at hc ⊢; tauto)
    rwa [hmem]

theorem runCommand_pbufTxHolds {v : Word} (hx : runCommand v s = .next t) (hv : decode v ≠ .ok .softReset)
    (h : PbufTxHolds p s.mem) : PbufTxHolds p t.mem := by
  unfold runCommand at hx
  split at hx
  · rename_i i hd
    exact exec_pbufTxHolds hx (fun hi => hv (hi ▸ hd)) h
  · cases hx; exact h

theorem writeCtrl_pbufTxHolds (v : Word) (h : PbufTxHolds p s.mem) : PbufTxHolds p (writeCtrl v s).mem := by
  unfold writeCtrl
  dsimp only
  split
  · rw [disableEffects_eq, abortSend_frame]; exact h
  · exact h

theorem writeAddr_pbufTxHolds (v : Word) (h : PbufTxHolds p s.mem) : PbufTxHolds p (writeAddr v s).mem := by
  unfold writeAddr
  split <;> exact h

/-- A write to a register other than CMD stores nothing. -/
theorem writeReg_pbufTxHolds {r : PortReg} {v : Word} (hx : writeReg r v s = .next t) (hr : r ≠ .cmd)
    (h : PbufTxHolds p s.mem) : PbufTxHolds p t.mem := by
  cases r with
  | cmd => exact absurd rfl hr
  | ctrl => cases hx; exact writeCtrl_pbufTxHolds v h
  | addr => cases hx; exact writeAddr_pbufTxHolds v h
  | _ => cases hx; exact h

/-- While PBUF_TX is not owned, a write to a window stores nothing (R76). -/
theorem writeWindow_pbufTxHolds (hown : s.tx.txOwned = false) (b : Buf) (i : Nat) (v : Word) (h : PbufTxHolds p s.mem) :
    PbufTxHolds p (writeWindow b i v s).mem := by
  by_cases hb : b = .pbufTx
  · subst hb; rw [writeWindow_notOwned hown]; exact h
  · rw [writeWindow_readOnly hb]; exact h

theorem hostWrite_pbufTxHolds {off : BitVec 10} {size : Nat} {v : Word} (hx : hostWrite off size v s = .next t)
    (hown : s.tx.txOwned = false) (hv : off = 0x018 → size = 4 → decode v ≠ .ok .softReset)
    (h : PbufTxHolds p s.mem) : PbufTxHolds p t.mem := by
  unfold hostWrite at hx
  split at hx
  · rename_i hok
    split at hx
    · rename_i r hr
      by_cases hcmd : r = .cmd
      · subst hcmd
        exact runCommand_pbufTxHolds hx (hv (portTarget_eq_reg_iff.1 hr) (accessOk_iff.1 hok).1) h
      · exact writeReg_pbufTxHolds hx hcmd h
    · cases hx; exact writeWindow_pbufTxHolds hown _ _ v h
    · cases hx; exact h
  · cases hx; exact h

theorem hostRead_pbufTxHolds (off : BitVec 10) (size : Nat) (h : PbufTxHolds p s.mem) :
    PbufTxHolds p (hostRead off size s).mem := by
  unfold hostRead
  split <;> exact h

/-- While PBUF_TX is not owned, every event leaves it, but for hardware reset and SOFT_RESET. -/
theorem runEvent_pbufTxHolds {e : Event} (hx : runEvent e s = .next t) (hown : s.tx.txOwned = false)
    (hreset : e ≠ .hardReset) (hsoft : ∀ v, e = .hostWrite 0x018 4 v → decode v ≠ .ok .softReset)
    (h : PbufTxHolds p s.mem) : PbufTxHolds p t.mem := by
  cases e with
  | hostWrite off size v => exact hostWrite_pbufTxHolds hx hown (by rintro rfl rfl; exact hsoft v rfl) h
  | hostRead off size => cases hx; exact hostRead_pbufTxHolds off size h
  | rxOffer f => cases hx; exact h
  | rxTake => cases hx; exact rxTake_pbufTxHolds h
  | txIssue => cases hx; exact txIssue_pbufTxHolds h
  | txDone ok => cases hx; exact txDone_pbufTxHolds ok h
  | msTick => cases hx; exact msTick_pbufTxHolds h
  | hardReset => exact absurd rfl hreset

end

/-- Settles O59: an active send does not own PBUF_TX, so the host cannot write it, and the block itself never does. -/
theorem pbufTxIsStableDuringASend : Obligations.PbufTxIsStableDuringASend := by
  intro e s t hinv hm hactive hx hreset hsoft
  have h : PbufTxHolds (bufRead s.mem .pbufTx) s.mem := ⟨hm, fun _ => rfl⟩
  exact (runEvent_pbufTxHolds hx (hinv.activeNotOwned hactive) hreset hsoft h).bytes

end Sys2Proof.Machine
end

section
/-! The wire forms: the opcode byte of a command word, and the layout and length of the frames the block builds. -/

namespace Sys2Proof.Machine

/-! ## The opcode byte -/

theorem opcodeField_toNat (w : Word) : (opcodeField w).toNat = w.toNat % 256 := by
  simp [opcodeField, BitVec.extractLsb'_toNat]

/-- Settles O8: a word decodes by its opcode field, which is its bits 7:0; the words written out are computed. -/
theorem decodeReadsTheOpcodeByte : Obligations.DecodeReadsTheOpcodeByte := by
  refine ⟨fun w i => ?_, by decide⟩
  rw [decode_ok, ← BitVec.toNat_inj, opcodeField_toNat]

/-! ## The layout of built frames -/

theorem stuffFrame_length (p : Params) (x : List Byte) : (stuffFrame p x).length =
    x.length + 2 + x.countP (fun b => decide (b = p.flagByte) || decide (b = p.escByte)) := by
  simp only [stuffFrame, List.length_append, List.length_singleton, stuffed_length]
  omega

/-- Between no byte escaped and every byte escaped (R141). -/
theorem stuffFrame_length_bounds (p : Params) (x : List Byte) :
    x.length + 2 ≤ (stuffFrame p x).length ∧ (stuffFrame p x).length ≤ 2 * x.length + 2 := by
  have hesc := x.countP_le_length (p := fun b => decide (b = p.flagByte) || decide (b = p.escByte))
  rw [stuffFrame_length]
  omega

theorem buildFrame_length_bounds (s : State) (cl ch d : Byte) (data : List Byte) :
    data.length + 9 ≤ (buildFrame s cl ch d data).length ∧
      (buildFrame s cl ch d data).length ≤ 2 * data.length + 16 := by
  have h := stuffFrame_length_bounds s.params (frameInterior s cl ch d data)
  rw [frameInterior_length] at h
  rw [buildFrame]
  omega

/-- The header and data of a frame whose CONTROL_HIGH is `controlHigh cls sq fin ck` (R102, R146). -/
def frameBody (s : State) (cl : Byte) (cls sq fin ck : Bool) (d : Byte) (data : List Byte) : List Byte :=
  [cl, BitVec.ofNat 8 ((if cls then 1 else 0) + (if sq then 4 else 0) + (if fin then 8 else 0) + (if ck then 16 else 0)),
    d, s.addr.myHw, BitVec.ofNat 8 data.length] ++ data

/-- A built frame is its body and the body's checksum bytes, stuffed. -/
theorem buildFrame_controlHigh (s : State) (cl : Byte) (cls sq fin ck : Bool) (d : Byte) (data : List Byte) :
    buildFrame s cl (controlHigh cls sq fin ck) d data =
      stuffFrame s.params (frameBody s cl cls sq fin ck d data ++
        [0x00, if ck then BitVec.ofNat 8 (parityFold (frameBody s cl cls sq fin ck d data)) else 0x00]) := by
  rw [← checksum_bytes, buildFrame, frameInterior, controlHigh_mode, controlHigh_eq, frameBody]

/-! ## The ACK frame -/

/-- Settles O54: the ACK is a control frame without data. -/
theorem ackFrameLayout : Obligations.AckFrameLayout := by
  intro s d sq
  refine ⟨?_, buildFrame_length_bounds s 0x01 _ d []⟩
  rw [ackFrame, buildFrame_controlHigh]
  simp [frameBody]

/-! ## The data frame -/

theorem dataFrame_length_le (s : State) : (dataFrame s).length ≤ 62 := by
  have hlen := (buildFrame_length_bounds s 0x00 (dataControlHigh s) s.tx.dest
    (bufBytes s.mem .pbufTx (maxFrag * s.tx.fragIdx) (fragLen s.tx.sendLen s.tx.fragIdx))).2
  have hfrag : fragLen s.tx.sendLen s.tx.fragIdx ≤ 23 := Nat.min_le_left ..
  rw [bufBytes_length] at hlen
  rw [dataFrame]
  omega

theorem buildFragment_stores {s : State} (h : memWf s.mem = true) :
    Stores s.mem (buildFragment s).mem 0x300 (dataFrame s) :=
  stores_bufWrite h .fbufTx 0 (dataFrame s) (by have := dataFrame_length_le s; simp only [bufSize]; omega)

/-- Settles O43: the stored frame is the data frame, and the rest is BuildFragment's own record update. -/
theorem buildFragmentMakesTheFrame : Obligations.BuildFragmentMakesTheFrame := by
  intro s hm k l ch body w
  have hw : dataFrame s = w := by
    rw [dataFrame, dataControlHigh, buildFrame_controlHigh]
    simp [frameBody, w, body, ch, l, k, fragLen, maxFrag]
  rw [← hw]
  exact ⟨rfl, dataFrame_length_le s, buildFragment_stores hm, rfl⟩

end Sys2Proof.Machine
end

section
/-! The checksum engine: the parity of a byte string under the changes R135 names, and the two commands as one operation on
a checked range. -/

namespace Sys2Proof.Machine

/-! ## The parity of a byte string -/

/-- Positions where exactly one of two predicates holds count, modulo 2, as the positions of both together. -/
theorem countP_xor_mod_two {α : Type} (p q : α → Bool) (l : List α) :
    l.countP (fun i => p i ^^ q i) % 2 = (l.countP p + l.countP q) % 2 := by
  induction l with
  | nil => rfl
  | cons i l ih =>
    simp only [List.countP_cons]
    cases p i <;> cases q i <;> simp <;> omega

theorem popcount_xor_mod_two (b m : Byte) : popcount (b ^^^ m) % 2 = (popcount b + popcount m) % 2 := by
  simp only [popcount, BitVec.getLsbD_xor]
  exact countP_xor_mod_two ..

/-- The parity sees the flipped bits by their number only. -/
theorem parityFold_flip (d m : List Byte) (h : m.length = d.length) :
    parityFold (List.zipWith (· ^^^ ·) d m) = (parityFold d + (m.map popcount).sum) % 2 := by
  induction d generalizing m with
  | nil => simp [List.length_eq_zero_iff.1 h, parityFold]
  | cons b d ih =>
    obtain _ | ⟨c, m⟩ := m
    · simp at h
    · have htail := ih m (by simpa using h)
      have hhead := popcount_xor_mod_two b c
      simp only [parityFold, List.zipWith_cons_cons, List.map_cons, List.sum_cons] at htail ⊢
      omega

theorem parityFold_append (a b : List Byte) : parityFold (a ++ b) = (parityFold a + parityFold b) % 2 := by
  simp [parityFold]

theorem parityFold_perm {d d' : List Byte} (h : d.Perm d') : parityFold d = parityFold d' := by
  rw [parityFold, parityFold, (h.map popcount).sum_eq]

/-- The bits of a byte string, each byte from its bit 0 on. -/
def bitString (d : List Byte) : List Bool := d.flatMap fun b => (List.range 8).map fun i => b.getLsbD i

/-- ParityFold counts the 1 bits of the string of bits (R130). -/
theorem parityFold_eq_countP (d : List Byte) : parityFold d = (bitString d).countP id % 2 := by
  have hbyte (b : Byte) : ((List.range 8).map fun i => b.getLsbD i).countP id = popcount b := List.countP_map
  simp only [parityFold, bitString, List.countP_flatMap, Function.comp_def, hbyte]

theorem parityFold_bits_perm {d d' : List Byte} (h : (bitString d).Perm (bitString d')) : parityFold d = parityFold d' := by
  rw [parityFold_eq_countP, parityFold_eq_countP, h.countP_eq]

/-! ## The checksum -/

theorem checksum_congr {d d' : List Byte} (h : parityFold d = parityFold d') :
    checksum .evenParity d = checksum .evenParity d' := congrArg (BitVec.ofNat 16) h

theorem checksum_of_parityFold {d : List Byte} {n : Nat} (h : parityFold d = n) :
    checksum .evenParity d = BitVec.ofNat 16 n := congrArg (BitVec.ofNat 16) h

/-- An odd number of flipped bits changes the checksum between 0 and 1. -/
theorem checksum_flip_odd {d m : List Byte} (hl : m.length = d.length) (hm : (m.map popcount).sum % 2 = 1) :
    (checksum .evenParity d = 0 ∧ checksum .evenParity (List.zipWith (· ^^^ ·) d m) = 1) ∨
      (checksum .evenParity d = 1 ∧ checksum .evenParity (List.zipWith (· ^^^ ·) d m) = 0) := by
  have hflip := parityFold_flip d m hl
  have hbit : parityFold d = 0 ∨ parityFold d = 1 := by have := parityFold_le d; omega
  rcases hbit with hd | hd
  · exact .inl ⟨checksum_of_parityFold hd, checksum_of_parityFold (n := 1) (by omega)⟩
  · exact .inr ⟨checksum_of_parityFold hd, checksum_of_parityFold (n := 0) (by omega)⟩

theorem checksum_flip_even {d m : List Byte} (hl : m.length = d.length) (hm : (m.map popcount).sum % 2 = 0) :
    checksum .evenParity (List.zipWith (· ^^^ ·) d m) = checksum .evenParity d :=
  checksum_congr (by have := parityFold_flip d m hl; have := parityFold_le d; omega)

theorem checksum_append (a b : List Byte) :
    checksum .evenParity (a ++ b) = checksum .evenParity a ^^^ checksum .evenParity b := by
  have ha := parityFold_le a
  have hb := parityFold_le b
  simp only [checksum, parityFold_append]
  generalize parityFold a = m at ha
  generalize parityFold b = n at hb
  interval_cases m <;> interval_cases n <;> rfl

/-- Settles O18: the parity is the number of 1 bits modulo 2, and each law is a fact about that number. -/
theorem checksumLaws : Obligations.ChecksumLaws :=
  ⟨fun _ _ h => checksum_congr (parityFold_perm h),
   fun _ _ h => checksum_congr (parityFold_bits_perm h),
   fun _ _ hl hm => checksum_flip_odd hl (congrArg (· % 2) hm),
   fun _ _ hl hm => checksum_flip_even hl hm,
   checksum_append,
   fun _ _ => ⟨rfl, rfl⟩⟩

/-! ## The commands -/

/-- A checksum command: R133's check of mode and range, then a result made of the mode and the bytes. -/
def checksumCommand (i : Instr) (f : CkMode → List Byte → Word) (s : State) : Host.Outcome State Fault Refusal :=
  match arg1Mode s with
  | none => raiseCmdError i .invalidArg s
  | some mode =>
    if (arg0Low s).toNat + (arg0High s).toNat > 128 then raiseCmdError i .invalidArg s
    else finishResult i (f mode (bufBytes s.mem (arg1Buf s) (arg0Low s).toNat (arg0High s).toNat)) s

theorem exec_cksumGen (s : State) :
    exec .cksumGen s = checksumCommand .cksumGen (fun mode d => (checksum mode d).setWidth 32) s := rfl

theorem exec_cksumVerify (s : State) :
    exec .cksumVerify s = checksumCommand .cksumVerify (fun mode d => bitAt 0 (verify mode (arg1Expected s) d)) s := rfl

section
variable {s : State}

/-- A reserved mode or a range past the buffer's end is INVALID_ARG. -/
theorem checksumCommand_invalid (i : Instr) (f : CkMode → List Byte → Word)
    (h : arg1Mode s = none ∨ 128 < (arg0Low s).toNat + (arg0High s).toNat) :
    checksumCommand i f s = .next { s with cmdStatus := { code := .invalidArg, op := opcode i } } := by
  unfold checksumCommand
  split
  · rfl
  · next mode hmode =>
    rw [if_pos (h.resolve_left (by simp [hmode]))]
    rfl

theorem checksumCommand_valid (i : Instr) (f : CkMode → List Byte → Word) {mode : CkMode} (hmode : arg1Mode s = some mode)
    (hrange : (arg0Low s).toNat + (arg0High s).toNat ≤ 128) :
    checksumCommand i f s = .next { s with
      result := f mode (bufBytes s.mem (arg1Buf s) (arg0Low s).toNat (arg0High s).toNat)
      cmdStatus := { code := .ok, op := opcode i } } := by
  rw [checksumCommand, hmode]
  exact if_neg hrange.not_gt

end

theorem checksum_evenParity_setWidth (d : List Byte) :
    (checksum .evenParity d).setWidth 32 = BitVec.ofNat 32 (parityFold d) := by
  have := parityFold_le d
  exact BitVec.eq_of_toNat_eq (by simp [checksum]; omega)

theorem verify_evenParity_iff (x : Half) (d : List Byte) : verify .evenParity x d = true ↔ x.toNat = parityFold d := by
  have hlt := parityFold_le d
  rw [verify, decide_eq_true_iff, checksum, ← BitVec.toNat_inj, BitVec.toNat_ofNat, Nat.mod_eq_of_lt (by omega)]

/-- The result word of a verification, 1 or 0 (R134). -/
theorem bitAt_verify_evenParity (x : Half) (d : List Byte) :
    bitAt 0 (verify .evenParity x d) = if x.toNat ≠ parityFold d then 0 else 1 := by
  by_cases hx : x.toNat = parityFold d
  · rw [(verify_evenParity_iff x d).2 hx, if_neg (not_not.2 hx)]
    rfl
  · rw [Bool.eq_false_iff.2 (mt (verify_evenParity_iff x d).1 hx), if_pos hx]
    rfl

/-- Settles O17: both commands check the same mode and range, and the result is that of the mode. -/
theorem checksumCommands : Obligations.ChecksumCommands := by
  intro s off len mode d x
  have hd : bufBytes s.mem (arg1Buf s) (arg0Low s).toNat (arg0High s).toNat = d := by
    rw [arg1Buf_eq, arg0Low_toNat, arg0High_toNat]
  rw [exec_cksumGen, exec_cksumVerify]
  refine ⟨fun hbad => ?_, fun hmode hrange => ?_⟩
  · have hbad' : arg1Mode s = none ∨ 128 < (arg0Low s).toNat + (arg0High s).toNat := by
      rw [arg0Low_toNat, arg0High_toNat]
      rcases arg1Mode_cases s with ⟨hm, -⟩ | ⟨hm, -⟩ | ⟨-, hnone⟩
      · exact .inr (by omega)
      · exact .inr (by omega)
      · exact .inl hnone
    exact ⟨checksumCommand_invalid _ _ hbad', checksumCommand_invalid _ _ hbad'⟩
  · have hrange' : (arg0Low s).toNat + (arg0High s).toNat ≤ 128 := by rwa [arg0Low_toNat, arg0High_toNat]
    rcases arg1Mode_cases s with ⟨hm, hnone⟩ | ⟨hm, heven⟩ | ⟨hm, -⟩
    · have hmode0 : mode = 0 := hm
      rw [checksumCommand_valid _ _ hnone hrange', checksumCommand_valid _ _ hnone hrange', hmode0]
      exact ⟨rfl, rfl⟩
    · have hmode1 : mode = 1 := hm
      rw [checksumCommand_valid _ _ heven hrange', checksumCommand_valid _ _ heven hrange', hd, hmode1,
        checksum_evenParity_setWidth, bitAt_verify_evenParity, arg1Expected_toNat]
      simp only [true_and]
      exact ⟨rfl, rfl⟩
    · omega

end Sys2Proof.Machine
end

section
/-! The frame codec: Unstuff on a stuffed string, whole, cut short or followed by more bytes; the fields of a built frame; and
STUFF and UNSTUFF as one operation on PBUF_TX's first bytes. -/

namespace Sys2Proof.Machine

/-! ## Unstuff, by its scan -/

section
variable {p : Params}

/-- A frame with another first byte than FLAG fails (R142). -/
theorem unstuffFrame_noLeadingFlag {b : Byte} (hb : b ≠ p.flagByte) (r : List Byte) (n : Nat) :
    unstuffFrame p (b :: r) n = none := by
  cases n with
  | zero => rfl
  | succ n => exact if_neg hb

theorem unstuffFrame_of_scan_none {r : List Byte} {n : Nat} (h : unstuffScan p (r.take n) = none) :
    unstuffFrame p (p.flagByte :: r) (n + 1) = none := by
  simp [unstuffFrame, h]

/-- A scan that ends in a flag succeeds when something stands before the flag and nothing after it. -/
theorem unstuffFrame_of_scan_some {r out after : List Byte} {n : Nat} (h : unstuffScan p (r.take n) = some (out, after)) :
    unstuffFrame p (p.flagByte :: r) (n + 1) = if out ≠ [] ∧ after = [] then some out else none := by
  cases after <;> simp [unstuffFrame, h]

/-! ## Unstuff of a stuffed string -/

/-- The bytes of a stuffed string that the scan sees come after the leading flag. -/
theorem stuffFrame_append (x y : List Byte) :
    stuffFrame p x ++ y = p.flagByte :: (x.flatMap (stuffByte p) ++ p.flagByte :: y) := by
  simp [stuffFrame]

/-- A stuffed string followed by `y` is unstuffed exactly when the string is not empty and `y` is (R143, R144). -/
theorem unstuffFrame_stuffFrame_append (h : p.flagByte ≠ p.escByte) (x y : List Byte) :
    unstuffFrame p (stuffFrame p x ++ y) (stuffFrame p x ++ y).length = if x ≠ [] ∧ y = [] then some x else none := by
  rw [stuffFrame_append, List.length_cons]
  apply unstuffFrame_of_scan_some
  rw [List.take_length]
  exact unstuffScan_stuffed p h y x

theorem unstuffFrame_stuffFrame (h : p.flagByte ≠ p.escByte) (x : List Byte) :
    unstuffFrame p (stuffFrame p x) (stuffFrame p x).length = if x ≠ [] then some x else none := by
  simpa using unstuffFrame_stuffFrame_append h x []

/-- A stuffed string cut short has no flag but the leading one. -/
theorem unstuffFrame_stuffFrame_cut (h : p.flagByte ≠ p.escByte) (x : List Byte) {n : Nat} (hn : n < (stuffFrame p x).length) :
    unstuffFrame p (stuffFrame p x) n = none := by
  have hx : stuffFrame p x = p.flagByte :: (x.flatMap (stuffByte p) ++ [p.flagByte]) := by
    simpa using stuffFrame_append (p := p) x []
  rw [hx] at hn ⊢
  cases n with
  | zero => rfl
  | succ n =>
    simp only [List.length_cons, List.length_append, List.length_nil] at hn
    apply unstuffFrame_of_scan_none
    rw [List.take_append_of_le_length (by omega)]
    exact unstuffScan_cut p h x n

end

/-- Settles O22: the scan of a stuffed string gives the string back, by induction on the string. -/
theorem unstuffUndoesStuff : Obligations.UnstuffUndoesStuff := by
  intro p h
  refine ⟨fun x hx => ?_, rfl, unstuffFrame_stuffFrame h []⟩
  rw [unstuffFrame_stuffFrame h, if_pos (List.length_pos_iff.1 hx)]

/-- Settles O21: each escaped byte adds one to the length. -/
theorem stuffedLengthCountsEscapes : Obligations.StuffedLengthCountsEscapes := by
  intro p x
  obtain ⟨hlow, hhigh⟩ := stuffFrame_length_bounds p x
  exact ⟨stuffFrame_length p x, hlow, hhigh, by omega, by omega⟩

/-- Settles O23: each way to spoil a frame fails. -/
theorem unstuffRejectsBadFrames : Obligations.UnstuffRejectsBadFrames := by
  intro p h
  refine ⟨fun b r n hb => unstuffFrame_noLeadingFlag hb r n, fun x n => unstuffFrame_stuffFrame_cut h x, fun x y hy => ?_,
    unstuffFrame_stuffFrame h []⟩
  rw [unstuffFrame_stuffFrame_append h, if_neg fun hgood => hy hgood.2]

/-! ## The fields of a built frame -/

theorem verify_checksum (mode : CkMode) (body : List Byte) : verify mode (checksum mode body) body = true := by
  cases mode with
  | none => rfl
  | evenParity => exact decide_eq_true rfl

section
variable (s : State) (cl ch d : Byte) (data : List Byte)

theorem frameCk_frameInterior : frameCk (frameInterior s cl ch d data) =
    checksum (modeOfBit (ch.getLsbD 4))
      ((frameInterior s cl ch d data).take ((frameInterior s cl ch d data).length - 2)) := by
  obtain ⟨-, hhi, hlo⟩ := frameInterior_checksum s cl ch d data
  rw [frameCk, hhi, hlo, ckOf_ckHi_ckLo]

/-- What a node builds verifies, in both modes (R132, R192). -/
theorem rxVerified_frameInterior : rxVerified (frameInterior s cl ch d data) = true := by
  have hch : frameCh (frameInterior s cl ch d data) = ch := rfl
  rw [rxVerified, hch, frameCk_frameInterior]
  exact verify_checksum _ _

variable {data}

theorem frameLength_frameInterior (h : data.length ≤ 23) : frameLength (frameInterior s cl ch d data) = data.length :=
  Nat.mod_eq_of_lt (by omega)

theorem frameData_frameInterior (h : data.length ≤ 23) : frameData (frameInterior s cl ch d data) = data := by
  rw [frameData, frameLength_frameInterior s cl ch d h]
  exact List.take_left

theorem formatGood_frameInterior (h : data.length ≤ 23) : FormatGood (frameInterior s cl ch d data) := by
  have hlen : ((frameInterior s cl ch d data).getD 4 0).toNat = data.length := frameLength_frameInterior s cl ch d h
  rw [FormatGood, hlen, frameInterior_length]
  omega

end

/-- Settles O24: unstuffing gives the interior back, whose header bytes, data and checksum stand where the parser reads
them. -/
theorem builtFrameParsesBack : Obligations.BuiltFrameParsesBack := by
  intro s cl ch d data hp hdata
  have hformat := formatGood_frameInterior s cl ch d hdata
  have hverified := rxVerified_frameInterior s cl ch d data
  refine ⟨frameInterior s cl ch d data, ?_, hformat, (rxVerified_iff _).1 hverified, (formatOk_iff _).2 hformat, hverified,
    rfl, rfl, rfl, rfl, frameLength_frameInterior s cl ch d hdata, frameData_frameInterior s cl ch d hdata⟩
  exact (unstuffFrame_stuffFrame hp _).trans (if_pos (List.cons_ne_nil _ _))

/-! ## The commands -/

/-- The end of a codec command: the codec's bytes in FBUF_TX and their number in RESULT, or RESULT 0 when it failed. -/
def codecFinish (i : Instr) (s : State) : Option (List Byte) → Host.Outcome State Fault Refusal
  | some w => finishResult i (BitVec.ofNat 32 w.length) (writeBuf s .fbufTx 0 w)
  | none => finishResult i 0 s

/-- A codec command: the checks R150 and R151 share, then `f` on the first bytes of PBUF_TX and their number. -/
def codecCommand (i : Instr) (maxLen : Nat) (f : List Byte → Nat → Option (List Byte)) (s : State) :
    Host.Outcome State Fault Refusal :=
  if idleish s = false then raiseCmdError i .busy s
  else if s.tx.txOwned = false then raiseCmdError i .noBuffer s
  else if (arg0Low s).toNat < 1 ∨ (arg0Low s).toNat > maxLen then raiseCmdError i .invalidArg s
  else codecFinish i s (f (bufBytes s.mem .pbufTx 0 (arg0Low s).toNat) (arg0Low s).toNat)

theorem exec_stuff (s : State) : exec .stuff s = codecCommand .stuff 31 (fun x _ => some (stuffFrame s.params x)) s := rfl

theorem exec_unstuff (s : State) : exec .unstuff s = codecCommand .unstuff 64 (unstuffFrame s.params) s := rfl

section
variable {s : State} (i : Instr) {maxLen : Nat} (f : List Byte → Nat → Option (List Byte))

theorem codecCommand_busy (h : ¬ (s.tx.arqState = .idle ∨ s.tx.arqState = .done)) :
    codecCommand i maxLen f s = .next { s with cmdStatus := { code := .busy, op := opcode i } } :=
  if_pos ((idleish_false s).2 h)

variable (hidle : s.tx.arqState = .idle ∨ s.tx.arqState = .done)
include hidle

theorem codecCommand_noBuffer (h : s.tx.txOwned = false) :
    codecCommand i maxLen f s = .next { s with cmdStatus := { code := .noBuffer, op := opcode i } } := by
  rw [codecCommand, if_neg (by simpa using hidle), if_pos h]
  rfl

variable (hown : s.tx.txOwned = true)
include hown

theorem codecCommand_invalidArg (h : s.arg0.toNat % 256 < 1 ∨ maxLen < s.arg0.toNat % 256) :
    codecCommand i maxLen f s = .next { s with cmdStatus := { code := .invalidArg, op := opcode i } } := by
  rw [codecCommand, if_neg (by simpa using hidle), if_neg (by simp [hown]), arg0Low_toNat, if_pos h]
  rfl

variable (hlow : 1 ≤ s.arg0.toNat % 256) (hhigh : s.arg0.toNat % 256 ≤ maxLen)
include hlow hhigh

/-- A codec command whose checks pass runs the codec. -/
theorem codecCommand_runs : codecCommand i maxLen f s =
    codecFinish i s (f (bufBytes s.mem .pbufTx 0 (s.arg0.toNat % 256)) (s.arg0.toNat % 256)) := by
  rw [codecCommand, if_neg (by simpa using hidle), if_neg (by simp [hown]), arg0Low_toNat, if_neg (by omega)]

theorem codecCommand_fails (h : f (bufBytes s.mem .pbufTx 0 (s.arg0.toNat % 256)) (s.arg0.toNat % 256) = none) :
    codecCommand i maxLen f s = .next { s with result := 0, cmdStatus := { code := .ok, op := opcode i } } := by
  rw [codecCommand_runs i f hidle hown hlow hhigh, h]
  rfl

theorem codecCommand_stores {w : List Byte} (hm : memWf s.mem = true)
    (h : f (bufBytes s.mem .pbufTx 0 (s.arg0.toNat % 256)) (s.arg0.toNat % 256) = some w) (hw : w.length ≤ 64) :
    ∃ t, codecCommand i maxLen f s = .next t ∧ Stores s.mem t.mem 0x300 w ∧
      t = { s with mem := t.mem, result := BitVec.ofNat 32 w.length, cmdStatus := { code := .ok, op := opcode i } } := by
  rw [codecCommand_runs i f hidle hown hlow hhigh, h]
  exact ⟨_, rfl, stores_bufWrite hm .fbufTx 0 w (by simpa [bufSize] using hw), rfl⟩

end

/-- Settles O19: 31 bytes stuff to at most 64, which fit FBUF_TX. -/
theorem stuffCommand : Obligations.StuffCommand := by
  intro s idle k ends
  simp only [ends, exec_stuff]
  refine ⟨codecCommand_busy .stuff _, codecCommand_noBuffer .stuff _, codecCommand_invalidArg .stuff _,
    fun hm hidle hown hlow hhigh => ?_⟩
  have hlen : (stuffFrame s.params (bufBytes s.mem .pbufTx 0 k)).length ≤ 64 := by
    have hbound := (stuffFrame_length_bounds s.params (bufBytes s.mem .pbufTx 0 k)).2
    rw [bufBytes_length] at hbound
    omega
  obtain ⟨t, hexec, hstores, ht⟩ :=
    codecCommand_stores .stuff (fun x _ => some (stuffFrame s.params x)) hidle hown hlow hhigh hm rfl hlen
  exact ⟨t, hexec, hstores, hlen, ht⟩

/-- Settles O20: an interior is shorter than the frame by at least the two flags. -/
theorem unstuffCommand : Obligations.UnstuffCommand := by
  intro s idle n ends u
  simp only [ends, exec_unstuff]
  refine ⟨codecCommand_busy .unstuff _, codecCommand_noBuffer .unstuff _, codecCommand_invalidArg .unstuff _,
    codecCommand_fails .unstuff (unstuffFrame s.params), fun x hm hidle hown hlow hhigh hx => ?_⟩
  obtain ⟨hpos, hshort, -⟩ := unstuffFrame_length hx
  obtain ⟨t, hexec, hstores, ht⟩ :=
    codecCommand_stores .unstuff (unstuffFrame s.params) hidle hown hlow hhigh hm hx (by omega)
  exact ⟨t, hexec, hstores, hpos, by omega, ht⟩

end Sys2Proof.Machine
end

section
/-! The sender, operation by operation: what ArqCheckAck, TX issue, PHY-TX completion, MS_TICK and the packet buffer
commands do in each of their cases, and the unanswered send of R186. -/

namespace Sys2Proof.Machine

section
variable {s : State}

/-! ## Starting a fragment -/

/-- BuildFragment and the move to SENDING_FRAGMENT, which ARQ_SEND, a matching ACK and a timeout share (R163, R177, R185). -/
def launchFragment (s : State) : State := { buildFragment s with tx.arqState := .sendingFragment }

theorem launchFragment_eq (s : State) : launchFragment s = { s with
    mem := (launchFragment s).mem, tx := { s.tx with arqState := .sendingFragment }, ack.latched := false
    port := { s.port with fbufTxLen := (dataFrame s).length, dataPending := true } } := by
  simp [launchFragment]

/-- The data frame reads the parameters, CTRL, ADDR, the sender's elements and memory. -/
theorem dataFrame_congr {t : State} (hparams : t.params = s.params) (hctrl : t.ctrl = s.ctrl) (haddr : t.addr = s.addr)
    (htx : t.tx = s.tx) (hmem : t.mem = s.mem) : dataFrame t = dataFrame s := by
  simp only [dataFrame, dataControlHigh, buildFrame, frameInterior, hparams, hctrl, haddr, htx, hmem]

theorem launchFragment_stores (h : memWf s.mem = true) : Stores s.mem (launchFragment s).mem 0x300 (dataFrame s) :=
  buildFragment_stores h

/-! ## ArqCheckAck -/

/-- What a matching ACK records before the send ends or goes on (R177). -/
def countFragment (s : State) : State := { s with ack.latched := false, tx.fragsDone := s.tx.fragsDone + 1 }

/-- The sender's elements of the next fragment (R177). -/
def nextFragment (s : State) : State :=
  { s with tx := { s.tx with fragIdx := s.tx.fragIdx + 1, curSeq := !s.tx.curSeq, retries := 0, timer := 0 } }

theorem ackMatches_iff (s : State) : ackMatches s = true ↔ s.ack.src = s.tx.dest ∧ s.ack.seq = s.tx.curSeq := by
  simp [ackMatches]

theorem arqCheckAck_ignores (h : ¬ (s.tx.arqState = .awaitAck ∧ s.ack.latched = true)) : arqCheckAck s = s :=
  if_neg h

section
variable (hst : s.tx.arqState = .awaitAck) (hl : s.ack.latched = true)
include hst hl

theorem arqCheckAck_consumes (h : ¬ (s.ack.src = s.tx.dest ∧ s.ack.seq = s.tx.curSeq)) :
    arqCheckAck s = { s with ack.latched := false } := by
  rw [arqCheckAck, if_pos ⟨hst, hl⟩, if_neg (mt (ackMatches_iff s).1 h)]

variable (hm : s.ack.src = s.tx.dest ∧ s.ack.seq = s.tx.curSeq)
include hm

theorem arqCheckAck_ends (hlast : s.tx.fragIdx + 1 = s.tx.nfrag) :
    arqCheckAck s = endSend .transmissionSuccess (countFragment s) := by
  rw [arqCheckAck, if_pos ⟨hst, hl⟩, if_pos ((ackMatches_iff s).2 hm)]
  exact if_pos hlast

theorem arqCheckAck_advances (hmore : s.tx.fragIdx + 1 ≠ s.tx.nfrag) :
    arqCheckAck s = launchFragment (nextFragment (countFragment s)) := by
  rw [arqCheckAck, if_pos ⟨hst, hl⟩, if_pos ((ackMatches_iff s).2 hm)]
  exact if_neg hmore

end

/-- All that ArqCheckAck can do (R177). -/
theorem arqCheckAck_cases (s : State) :
    arqCheckAck s = s ∨
    s.tx.arqState = .awaitAck ∧
      (arqCheckAck s = { s with ack.latched := false } ∨
       arqCheckAck s = endSend .transmissionSuccess (countFragment s) ∨
       s.tx.fragIdx + 1 ≠ s.tx.nfrag ∧ arqCheckAck s = launchFragment (nextFragment (countFragment s))) := by
  by_cases hw : s.tx.arqState = .awaitAck ∧ s.ack.latched = true
  · obtain ⟨hst, hl⟩ := hw
    refine .inr ⟨hst, ?_⟩
    by_cases hm : s.ack.src = s.tx.dest ∧ s.ack.seq = s.tx.curSeq
    · by_cases hlast : s.tx.fragIdx + 1 = s.tx.nfrag
      · exact .inr (.inl (arqCheckAck_ends hst hl hm hlast))
      · exact .inr (.inr ⟨hlast, arqCheckAck_advances hst hl hm hlast⟩)
    · exact .inl (arqCheckAck_consumes hst hl hm)
  · exact .inl (arqCheckAck_ignores hw)

/-- Settles O44: ArqCheckAck, case by case. -/
theorem ackCheckAdvancesOrEnds : Obligations.AckCheckAdvancesOrEnds := by
  intro s hmem t good
  refine ⟨arqCheckAck_ignores, arqCheckAck_consumes, arqCheckAck_ends, fun hst hl hgood hmore => ?_⟩
  have ht : t = launchFragment (nextFragment (countFragment s)) := arqCheckAck_advances hst hl hgood hmore
  intro tx w
  have hw : dataFrame (nextFragment (countFragment s)) = w := dataFrame_congr rfl rfl rfl rfl rfl
  rw [ht, ← hw]
  refine ⟨launchFragment_stores (s := nextFragment (countFragment s)) hmem, ?_⟩
  rw [launchFragment_eq]
  rfl

/-! ## TX issue -/

theorem txIssueEnabled_iff (s : State) : txIssueEnabled s = true ↔
    (s.ctrl.enable = true ∧ s.port.txInflight = .none) ∧ (s.port.ackPending = true ∨ s.port.dataPending = true) := by
  simp [txIssueEnabled]

theorem txIssue_rests (h : txIssueEnabled s = false) : txIssue s = s := by simp [txIssue, h]

/-- PHY-TX has accepted the waiting ACK (R180). -/
def issueAck (s : State) : State :=
  { s with
    env.txHeld := some (bufBytes s.mem .abuf 0 s.port.abufLen)
    port := { s.port with ackPending := false, txInflight := .ack }
    counters.txFrames := s.counters.txFrames + 1 }

/-- PHY-TX has accepted the waiting data frame (R180). -/
def issueData (s : State) : State :=
  { s with
    env.txHeld := some (bufBytes s.mem .fbufTx 0 s.port.fbufTxLen)
    port := { s.port with dataPending := false, txInflight := .data }
    counters.txFrames := s.counters.txFrames + 1 }

section
variable (h : s.ctrl.enable = true ∧ s.port.txInflight = .none)
include h

theorem txIssue_ack (hp : s.port.ackPending = true) : txIssue s = issueAck s := by
  rw [txIssue, if_pos ((txIssueEnabled_iff s).2 ⟨h, .inl hp⟩), if_pos hp, issueAck]

theorem txIssue_data (hp : s.port.ackPending = false) (hd : s.port.dataPending = true) : txIssue s = issueData s := by
  rw [txIssue, if_pos ((txIssueEnabled_iff s).2 ⟨h, .inr hd⟩), hp, issueData]
  rfl

end

/-- All that TX issue can do (R180). -/
theorem txIssue_cases (s : State) :
    txIssue s = s ∨
    s.port.txInflight = .none ∧ (txIssue s = issueAck s ∨ s.port.dataPending = true ∧ txIssue s = issueData s) := by
  cases hen : txIssueEnabled s with
  | false => exact .inl (txIssue_rests hen)
  | true =>
    obtain ⟨hrun, hwait⟩ := (txIssueEnabled_iff s).1 hen
    refine .inr ⟨hrun.2, ?_⟩
    cases hp : s.port.ackPending with
    | true => exact .inl (txIssue_ack hrun hp)
    | false =>
      have hd : s.port.dataPending = true := hwait.resolve_left (by simp [hp])
      exact .inr ⟨hd, txIssue_data hrun hp hd⟩

/-- A counter is the number of its increments, modulo its width (R43). -/
theorem add_one_eq_ofNat {w : Nat} (v : BitVec w) : v + 1 = BitVec.ofNat w (v.toNat + 1) := by
  simp [BitVec.ofNat_add]

/-- Settles O45: a waiting ACK before a waiting data frame. -/
theorem txIssueSendsAckFirst : Obligations.TxIssueSendsAckFirst := by
  intro s mayRun
  refine ⟨fun h => congrArg _ (txIssue_rests ?_), fun hrun hp => ?_, fun hrun hp hd => ?_⟩
  · rw [← Bool.not_eq_true, txIssueEnabled_iff]
    rintro ⟨hrun, hwait⟩
    rcases h with h | ⟨ha, hd⟩
    · exact h hrun
    · simp [ha, hd] at hwait
  · rw [← add_one_eq_ofNat, runEvent, txIssue_ack hrun hp, issueAck]
  · rw [← add_one_eq_ofNat, runEvent, txIssue_data hrun hp hd, issueData]

/-! ## PHY-TX completion -/

/-- The port once PHY-TX has completed its frame (R181). -/
def freePort (s : State) : State := { s with port.txInflight := .none, env.txHeld := none }

theorem txDone_none (ok : Bool) (h : s.port.txInflight = .none) : txDone ok s = s := by simp only [txDone, h]

theorem txDone_control (ok : Bool) (h : s.port.txInflight = .ack ∨ s.port.txInflight = .orphan) :
    txDone ok s = freePort s := by
  rcases h with h | h <;> simp only [txDone, h, freePort]

theorem txDone_data (ok : Bool) (h : s.port.txInflight = .data) : txDone ok s = dataCompletion ok (freePort s) := by
  simp only [txDone, h, freePort]

/-- A unicast data frame sent well, and not to be aborted, is awaited (R181). -/
def awaitAck (s : State) : State := { s with tx := { s.tx with arqState := .awaitAck, timer := 0 } }

section
variable (ok : Bool)

theorem dataCompletion_aborted (h : s.port.abortPending = true) : dataCompletion ok s = endSend .aborted s := if_pos h

variable (h : s.port.abortPending = false)
include h

theorem dataCompletion_failed : dataCompletion false s = endSend .nodeUnreachable s := by simp [dataCompletion, h]

theorem dataCompletion_bcast (hd : s.tx.dest = bcastAddr) :
    dataCompletion true s = endSend .transmissionSuccess { s with tx.fragsDone := 1 } := by simp [dataCompletion, h, hd]

theorem dataCompletion_unicast (hd : s.tx.dest ≠ bcastAddr) : dataCompletion true s = arqCheckAck (awaitAck s) := by
  simp [dataCompletion, h, hd, awaitAck]

end

/-- All that the completion of a data frame can do (R181). -/
theorem dataCompletion_cases (ok : Bool) (s : State) :
    (∃ code, dataCompletion ok s = endSend code s) ∨
    dataCompletion ok s = endSend .transmissionSuccess { s with tx.fragsDone := 1 } ∨
    s.port.abortPending = false ∧ dataCompletion ok s = arqCheckAck (awaitAck s) := by
  cases ha : s.port.abortPending with
  | true => exact .inl ⟨_, dataCompletion_aborted ok ha⟩
  | false =>
    cases ok with
    | false => exact .inl ⟨_, dataCompletion_failed ha⟩
    | true =>
      by_cases hd : s.tx.dest = bcastAddr
      · exact .inr (.inl (dataCompletion_bcast ha hd))
      · exact .inr (.inr ⟨rfl, dataCompletion_unicast ha hd⟩)

/-- Settles O46: by what was in flight, and how a data frame completed. -/
theorem txCompletion : Obligations.TxCompletion := by
  intro s ok free ended
  refine ⟨fun h => ?_, fun h => ?_, fun h ha => ?_, fun h ha hok => ?_, fun h ha hok hd => ?_, fun h ha hok hd => ?_⟩
  · rw [runEvent, txDone_none ok h]
  · rw [runEvent, txDone_control ok h]; rfl
  · rw [runEvent, txDone_data ok h, dataCompletion_aborted ok (by exact ha)]; rfl
  · rw [runEvent, txDone_data ok h, hok, dataCompletion_failed (by exact ha)]; rfl
  · rw [runEvent, txDone_data ok h, hok, dataCompletion_bcast (by exact ha) (by exact hd)]; rfl
  · rw [runEvent, txDone_data ok h, hok, dataCompletion_unicast (by exact ha) (by exact hd)]; rfl

/-! ## MS_TICK -/

theorem tickTimer_eq (t : Half) : tickTimer t = BitVec.ofNat 16 (min (t.toNat + 1) 0xFFFF) := by
  have hlt := t.isLt
  unfold tickTimer
  split
  · rename_i h; subst h; rfl
  · rename_i h
    have hne : t.toNat ≠ 0xFFFF := fun h' => h (BitVec.eq_of_toNat_eq h')
    rw [add_one_eq_ofNat, Nat.min_eq_left (by omega)]

theorem tickTimer_toNat (t : Half) : (tickTimer t).toNat = min (t.toNat + 1) 0xFFFF := by
  rw [tickTimer_eq, BitVec.toNat_ofNat]; omega

theorem msTick_rests (h : ¬ (s.tx.arqState = .awaitAck ∧ s.arqCfg.ackTimeout ≠ 0)) : msTick s = s := if_neg h

/-- The elements a timeout sets before it builds the fragment again (R185). -/
def countRetry (s : State) : State :=
  { s with
    tx := { s.tx with retries := s.tx.retries + 1, timer := 0 }
    counters.txRetries := s.counters.txRetries + 1 }

section
variable (h : s.tx.arqState = .awaitAck ∧ s.arqCfg.ackTimeout ≠ 0)
include h

theorem msTick_counts (ht : (tickTimer s.tx.timer).toNat < s.arqCfg.ackTimeout.toNat) :
    msTick s = { s with tx.timer := tickTimer s.tx.timer } := by
  rw [msTick, if_pos h]
  exact if_neg (Nat.not_le.2 ht)

variable (ht : s.arqCfg.ackTimeout.toNat ≤ (tickTimer s.tx.timer).toNat)
include ht

theorem msTick_retries (hr : s.tx.retries.toNat < s.arqCfg.maxRetries.toNat) :
    msTick s = launchFragment (countRetry s) := by
  rw [msTick, if_pos h]
  exact (if_pos ht).trans (if_pos hr)

theorem msTick_givesUp (hr : s.arqCfg.maxRetries.toNat ≤ s.tx.retries.toNat) :
    msTick s = endSend .nodeUnreachable { s with tx.timer := tickTimer s.tx.timer } := by
  rw [msTick, if_pos h]
  exact (if_pos ht).trans (if_neg (Nat.not_lt.2 hr))

end

/-- All that MS_TICK can do (R185). -/
theorem msTick_cases (s : State) :
    msTick s = s ∨
    s.tx.arqState = .awaitAck ∧
      (msTick s = { s with tx.timer := tickTimer s.tx.timer } ∨ msTick s = launchFragment (countRetry s) ∨
       msTick s = endSend .nodeUnreachable { s with tx.timer := tickTimer s.tx.timer }) := by
  by_cases h : s.tx.arqState = .awaitAck ∧ s.arqCfg.ackTimeout ≠ 0
  · refine .inr ⟨h.1, ?_⟩
    rcases Nat.lt_or_ge (tickTimer s.tx.timer).toNat s.arqCfg.ackTimeout.toNat with ht | ht
    · exact .inl (msTick_counts h ht)
    · rcases Nat.lt_or_ge s.tx.retries.toNat s.arqCfg.maxRetries.toNat with hr | hr
      · exact .inr (.inl (msTick_retries h ht hr))
      · exact .inr (.inr (msTick_givesUp h ht hr))
  · exact .inl (msTick_rests h)

/-- Settles O47: below the timeout, at it with retries left, and at it without. -/
theorem msTickCountsAndRetries : Obligations.MsTickCountsAndRetries := by
  intro s hm T n ticking
  have hT : ticking → s.tx.arqState = .awaitAck ∧ s.arqCfg.ackTimeout ≠ 0 :=
    fun ⟨hst, h0⟩ => ⟨hst, fun h => h0 (congrArg BitVec.toNat h)⟩
  have hn : (tickTimer s.tx.timer).toNat = n := tickTimer_toNat _
  refine ⟨fun h => congrArg _ (msTick_rests fun ⟨hst, h0⟩ => h ⟨hst, fun h' => h0 (BitVec.eq_of_toNat_eq h')⟩),
    fun h hlt => ?_, fun h hle hr => ?_, fun h hle hr => ?_⟩
  · rw [runEvent, msTick_counts (hT h) (hn ▸ hlt), tickTimer_eq]
  · refine ⟨_, rfl, ?_⟩
    rw [msTick_retries (hT h) (hn ▸ hle) hr, ← add_one_eq_ofNat, ← add_one_eq_ofNat]
    exact ⟨launchFragment_stores (s := countRetry s) hm, rfl⟩
  · rw [runEvent, msTick_givesUp (hT h) (hn ▸ hle) hr, tickTimer_eq]; rfl

end

end Sys2Proof.Machine
end

section
/-! The packet buffer and sender commands (R160-R168), check by check. -/

namespace Sys2Proof.Machine

section
variable {s : State}

/-- Settles O12: the checks of TX_ALLOC and TX_DISCARD, in order. -/
theorem txBufferCommands : Obligations.TxBufferCommands := by
  intro s idle len
  have hbusy : ¬ idle → idleish s = false := (idleish_false s).2
  have hidle : idle → ¬ idleish s = false := fun h => by simpa using h
  refine ⟨fun h => ?_, fun h h0 => ?_, fun h hbig => ?_, fun h hpos hle => ?_, fun h => ?_, fun h => ?_⟩
  · exact if_pos (hbusy h)
  · rw [exec, execTxAlloc, if_neg (hidle h), arg0Low_toNat, if_pos h0]; rfl
  · rw [exec, execTxAlloc, if_neg (hidle h), arg0Low_toNat, if_neg (by omega), if_pos hbig]; rfl
  · rw [exec, execTxAlloc, if_neg (hidle h), arg0Low_toNat, if_neg (by omega), if_neg (by omega)]; rfl
  · exact if_pos h
  · exact if_neg (by simp [h])

/-! ## ARQ_SEND -/

theorem exec_arqSend_rejects {code : CmdCode} (h : arqSendCheck s = some code) :
    exec .arqSend s = .next { s with cmdStatus := { code := code, op := 0x03 } } := by
  rw [exec, execArqSend, h]; rfl

theorem exec_arqSend_accepts (h : arqSendCheck s = none) :
    exec .arqSend s = .next { launchFragment (startSend s) with cmdStatus := { code := .ok, op := 0x03 } } := by
  rw [exec, execArqSend, h]; rfl

/-- The destination operand is the broadcast address (R5, R92). -/
theorem arg0Low_eq_bcastAddr (s : State) : arg0Low s = bcastAddr ↔ s.arg0.toNat % 256 = 255 := by
  rw [← BitVec.toNat_inj, arg0Low_toNat]; rfl

/-- The checks of ARQ_SEND on the numbers its operands hold (R162). -/
theorem arqSendCheck_eq (s : State) : arqSendCheck s =
    (if s.ctrl.enable = false then some .disabled
     else if idleish s = false then some .busy
     else if s.tx.txOwned = false then some .noBuffer
     else if s.arg0.toNat / 256 % 256 > 128 ∨ (s.arg0.toNat % 256 = 255 ∧ s.arg0.toNat / 256 % 256 > 23) then
       some .packetTooBig
     else if s.arg0.toNat / 256 % 256 = 0 ∨ s.arg0.toNat / 256 % 256 > s.tx.allocLen then some .invalidArg
     else none) := by
  simp only [arqSendCheck, arg0High_toNat, arg0Low_eq_bcastAddr]

/-- Settles O13: each check fails after those before it have passed. -/
theorem arqSendRejects : Obligations.ArqSendRejects := by
  intro s idle dest len ends
  have hidle : idle → ¬ idleish s = false := fun h => by simpa using h
  refine ⟨fun hen => ?_, fun hen hi => ?_, fun hen hi hown => ?_, fun hen hi hown hbig => ?_, fun hen hi hown hfit hbad => ?_⟩
  all_goals refine exec_arqSend_rejects ?_; rw [arqSendCheck_eq]
  · rw [if_pos hen]
  · rw [if_neg (by simp [hen]), if_pos ((idleish_false s).2 hi)]
  · rw [if_neg (by simp [hen]), if_neg (hidle hi), if_pos hown]
  · rw [if_neg (by simp [hen]), if_neg (hidle hi), if_neg (by simp [hown]), if_pos hbig]
  · rw [if_neg (by simp [hen]), if_neg (hidle hi), if_neg (by simp [hown]), if_neg hfit, if_pos hbad]

/-- What the checks of ARQ_SEND leave of its operands and the sender (R162). -/
theorem arqSendCheck_none (s : State) : arqSendCheck s = none ↔
    s.ctrl.enable = true ∧ idleish s = true ∧ s.tx.txOwned = true ∧
      (s.arg0.toNat / 256 % 256 ≤ 128 ∧ (s.arg0.toNat % 256 = 255 → s.arg0.toNat / 256 % 256 ≤ 23)) ∧
      1 ≤ s.arg0.toNat / 256 % 256 ∧ s.arg0.toNat / 256 % 256 ≤ s.tx.allocLen := by
  rw [arqSendCheck_eq]
  split_ifs <;> simp_all <;> omega

/-- The start of a send, with the numbers its operands hold (R163). -/
theorem startSend_eq (s : State) : startSend s = { s with
    tx := { s.tx with
      txOwned := false, dest := s.arg0.setWidth 8, sendLen := s.arg0.toNat / 256 % 256
      nfrag := (s.arg0.toNat / 256 % 256 + 22) / 23, fragIdx := 0, curSeq := false, retries := 0, timer := 0, fragsDone := 0 }
    flags.txDone := false
    txResult := { code := .none, fragsDone := 0, nfrag := 0 }
    port.abortPending := false } := by
  simp [startSend, arg0Low_eq, fragCount, maxFrag]

/-- Settles O14: the checks pass, and the send starts with its first fragment, which is the last one up to 23 bytes. -/
theorem arqSendStartsTheSend : Obligations.ArqSendStartsTheSend := by
  intro s len hm hen hidle hown hpos hle halloc hbc
  have hcheck : arqSendCheck s = none :=
    (arqSendCheck_none s).2 ⟨hen, (idleish_true s).2 hidle, hown, ⟨hle, hbc⟩, hpos, halloc⟩
  refine ⟨_, exec_arqSend_accepts hcheck, ?_⟩
  intro l ch body w
  have hlast : 0 + 1 = (len + 22) / 23 ↔ len ≤ 23 := by omega
  have hw : dataFrame (startSend s) = w := by
    rw [(buildFragmentMakesTheFrame (startSend s) hm).1, startSend_eq]
    simp only [w, body, ch, l, ← hlast]
    rfl
  rw [← hw]
  refine ⟨launchFragment_stores (s := startSend s) hm, ?_⟩
  rw [launchFragment_eq, startSend_eq]

/-! ## ARQ_ABORT and RX_RELEASE -/

/-- Settles O15: ARQ_ABORT's body, case by case. -/
theorem arqAbortCancels : Obligations.ArqAbortCancels := by
  intro s
  refine ⟨{ abortSend s with cmdStatus := { code := .ok, op := 0x04 } }, rfl, rfl, fun h => ?_, fun h => ?_, fun h hp => ?_,
    fun h hp => ?_⟩
  · rw [abortSend_idleish h]
  · rw [abortSend_awaitAck h]; rfl
  · rw [abortSend_pending h hp]; rfl
  · rw [abortSend_inFlight h hp]

/-- Settles O16: RX_RELEASE with and without a delivered packet. -/
theorem rxReleaseHandsBackTheBuffer : Obligations.RxReleaseHandsBackTheBuffer :=
  fun _ => ⟨fun h => if_pos h, fun h => if_neg (by simp [h])⟩

end

end Sys2Proof.Machine
end

section
/-! The unanswered send (R186): one round of a timeout, a retry and its completion leaves the sender where it was, one retry
later, so the rounds are counted by induction. -/

namespace Sys2Proof.Machine

/-! ## Ticks -/

theorem ticks_succ (k : Nat) (s : State) : ticks (k + 1) s = msTick (ticks k s) := by
  induction k generalizing s with
  | zero => rfl
  | succ k ih => exact ih (msTick s)

/-- The timer counts up to the timeout. -/
theorem ticks_below {s : State} (hst : s.tx.arqState = .awaitAck) (k : Nat)
    (hk : s.tx.timer.toNat + k < s.arqCfg.ackTimeout.toNat) :
    ticks k s = { s with tx.timer := BitVec.ofNat 16 (s.tx.timer.toNat + k) } := by
  induction k generalizing s with
  | zero => simp [ticks]
  | succ k ih =>
    have hT := s.arqCfg.ackTimeout.isLt
    have hne : s.arqCfg.ackTimeout ≠ 0 := by rintro h; simp [h] at hk
    have htimer : (tickTimer s.tx.timer).toNat = s.tx.timer.toNat + 1 := by rw [tickTimer_toNat]; omega
    rw [ticks, msTick_counts ⟨hst, hne⟩ (by omega), ih (by exact hst) (by simp only [htimer]; omega)]
    simp only [htimer, Nat.add_assoc, Nat.add_comm 1 k]

/-! ## One round -/

/-- Round `n` of the unanswered send that began in `s₀`: the frame of the fragment has been sent `n + 1` times, and the
sender begins to wait. -/
structure AwaitsRound (s₀ : State) (n : Nat) (s : State) : Prop where
  state : s.tx.arqState = .awaitAck
  timer : s.tx.timer = 0
  enabled : s.ctrl.enable = true
  noAck : s.port.ackPending = false
  noFlight : s.port.txInflight = .none
  noAbort : s.port.abortPending = false
  cfg : s.arqCfg = s₀.arqCfg
  dest : s.tx.dest = s₀.tx.dest
  fragIdx : s.tx.fragIdx = s₀.tx.fragIdx
  curSeq : s.tx.curSeq = s₀.tx.curSeq
  fragsDone : s.tx.fragsDone = s₀.tx.fragsDone
  nfrag : s.tx.nfrag = s₀.tx.nfrag
  retries : s.tx.retries.toNat = n
  txFrames : s.counters.txFrames = s₀.counters.txFrames + BitVec.ofNat 32 n
  txRetries : s.counters.txRetries = s₀.counters.txRetries + BitVec.ofNat 32 n

section
variable {s₀ s : State} {n : Nat} (h : AwaitsRound s₀ n s)
include h

theorem AwaitsRound.ticks_below {k : Nat} (hk : k < s₀.arqCfg.ackTimeout.toNat) :
    ticks k s = { s with tx.timer := BitVec.ofNat 16 k } := by
  have htimer : s.tx.timer.toNat = 0 := by rw [h.timer]; rfl
  rw [Machine.ticks_below h.state k (by rw [h.cfg, htimer]; omega), htimer, Nat.zero_add]

/-- At the timeout the state is that of one tick before, but for the timer. -/
theorem AwaitsRound.timeout (hT : s₀.arqCfg.ackTimeout ≠ 0) :
    ∃ u, ticks s₀.arqCfg.ackTimeout.toNat s = msTick { s with tx.timer := u } ∧
      s₀.arqCfg.ackTimeout.toNat ≤ (tickTimer u).toNat := by
  obtain ⟨k, hk⟩ : ∃ k, s₀.arqCfg.ackTimeout.toNat = k + 1 :=
    Nat.exists_eq_succ_of_ne_zero fun h0 => hT (BitVec.eq_of_toNat_eq h0)
  have hlt := s₀.arqCfg.ackTimeout.isLt
  refine ⟨BitVec.ofNat 16 k, ?_, ?_⟩
  · rw [hk, ticks_succ, h.ticks_below (by omega)]
  · rw [tickTimer_toNat, BitVec.toNat_ofNat]; omega

/-- With retries left, the timeout launches the fragment again. -/
theorem AwaitsRound.retries_at_timeout (hT : s₀.arqCfg.ackTimeout ≠ 0) (hn : n < s₀.arqCfg.maxRetries.toNat) :
    ∃ u, ticks s₀.arqCfg.ackTimeout.toNat s = launchFragment (countRetry { s with tx.timer := u }) := by
  obtain ⟨u, hticks, hu⟩ := h.timeout hT
  refine ⟨u, hticks.trans (msTick_retries ⟨h.state, ?_⟩ ?_ ?_)⟩
  · exact h.cfg ▸ hT
  · exact h.cfg ▸ hu
  · show s.tx.retries.toNat < s.arqCfg.maxRetries.toNat
    rw [h.retries, h.cfg]; exact hn

/-- With no retries left, the timeout ends the send. -/
theorem AwaitsRound.ends_at_timeout (hT : s₀.arqCfg.ackTimeout ≠ 0) (hn : s₀.arqCfg.maxRetries.toNat ≤ n) :
    ∃ u, ticks s₀.arqCfg.ackTimeout.toNat s = endSend .nodeUnreachable { s with tx.timer := u } := by
  obtain ⟨u, hticks, hu⟩ := h.timeout hT
  refine ⟨tickTimer u, hticks.trans (msTick_givesUp ⟨h.state, ?_⟩ ?_ ?_)⟩
  · exact h.cfg ▸ hT
  · exact h.cfg ▸ hu
  · show s.arqCfg.maxRetries.toNat ≤ s.tx.retries.toNat
    rw [h.retries, h.cfg]; exact hn

end

/-- A unicast data frame that is issued and completes well, with no ACK latched, is awaited. -/
theorem txDone_txIssue {s : State} (hen : s.ctrl.enable = true) (hack : s.port.ackPending = false)
    (hfree : s.port.txInflight = .none) (hdata : s.port.dataPending = true) (habort : s.port.abortPending = false)
    (hdest : s.tx.dest ≠ 0xFF) (hlatch : s.ack.latched = false) :
    txDone true (txIssue s) = awaitAck { s with
      port := { s.port with dataPending := false, txInflight := .none }
      counters.txFrames := s.counters.txFrames + 1
      env.txHeld := none } := by
  rw [txIssue_data ⟨hen, hfree⟩ hack hdata, txDone_data true rfl, dataCompletion_unicast (by exact habort) (by exact hdest),
    arqCheckAck_ignores]
  · rfl
  · rintro ⟨-, hl⟩
    exact absurd (hlatch.symm.trans hl) (by decide)

/-- One more increment of a counter. -/
theorem add_ofNat_succ (v : Word) (n : Nat) : v + BitVec.ofNat 32 n + 1 = v + BitVec.ofNat 32 (n + 1) := by
  rw [BitVec.add_assoc, BitVec.ofNat_add]; rfl

/-- One unanswered round uses up one retry (R186). -/
theorem AwaitsRound.retryRound {s₀ s : State} {n : Nat} (h : AwaitsRound s₀ n s) (hT : s₀.arqCfg.ackTimeout ≠ 0)
    (hdest : s₀.tx.dest ≠ 0xFF) (hn : n < s₀.arqCfg.maxRetries.toNat) : AwaitsRound s₀ (n + 1) (retryRound s) := by
  obtain ⟨u, hticks⟩ := h.retries_at_timeout hT hn
  have hN := s₀.arqCfg.maxRetries.isLt
  rw [Machine.retryRound, h.cfg, hticks, launchFragment_eq, txDone_txIssue (by exact h.enabled) (by exact h.noAck)
    (by exact h.noFlight) rfl (by exact h.noAbort) (by exact h.dest ▸ hdest) rfl]
  exact {
    state := rfl, timer := rfl, enabled := h.enabled, noAck := h.noAck, noFlight := rfl, noAbort := h.noAbort, cfg := h.cfg
    dest := h.dest, fragIdx := h.fragIdx, curSeq := h.curSeq, fragsDone := h.fragsDone, nfrag := h.nfrag
    retries := by
      show (s.tx.retries + 1).toNat = n + 1
      rw [add_one_eq_ofNat, h.retries, BitVec.toNat_ofNat]; omega
    txFrames := (congrArg (· + 1) h.txFrames).trans (add_ofNat_succ _ n)
    txRetries := (congrArg (· + 1) h.txRetries).trans (add_ofNat_succ _ n) }

/-! ## All rounds -/

theorem retryRounds_succ (n : Nat) (s : State) : retryRounds (n + 1) s = retryRound (retryRounds n s) := by
  induction n generalizing s with
  | zero => rfl
  | succ n ih => exact ih (retryRound s)

theorem awaitsRound_retryRounds {s : State} (h : AwaitsRound s 0 s) (hT : s.arqCfg.ackTimeout ≠ 0) (hdest : s.tx.dest ≠ 0xFF)
    (n : Nat) (hn : n ≤ s.arqCfg.maxRetries.toNat) : AwaitsRound s n (retryRounds n s) := by
  induction n with
  | zero => exact h
  | succ n ih =>
    rw [retryRounds_succ]
    exact (ih (by omega)).retryRound hT hdest (by omega)

/-- Settles O48: the rounds count the retries, and the timeout after the last of them ends the send. -/
theorem unansweredSendIsBounded : Obligations.UnansweredSendIsBounded := by
  intro s hst htimer hretries hT hen hack hfree habort hdest T N t
  have h0 : AwaitsRound s 0 s :=
    ⟨hst, htimer, hen, hack, hfree, habort, rfl, rfl, rfl, rfl, rfl, rfl, by rw [hretries]; rfl, by simp, by simp⟩
  have hround := awaitsRound_retryRounds h0 hT hdest
  have hlast := hround N (Nat.le_refl N)
  obtain ⟨u, ht⟩ := hlast.ends_at_timeout hT (Nat.le_refl N)
  have ht : t = endSend .nodeUnreachable { retryRounds N s with tx.timer := u } := ht
  refine ⟨fun n k hn hk => ?_, ?_⟩
  · rw [(hround n hn).ticks_below hk]
    exact (hround n hn).state
  · rw [ht]
    refine ⟨rfl, rfl, ?_, hlast.fragIdx, hlast.curSeq, hlast.txFrames, hlast.txRetries⟩
    rw [endSend_txResult, hlast.fragsDone, hlast.nfrag]

end Sys2Proof.Machine
end

section
/-! The receive path: when a frame is taken, which check decides how it ends, and what each end leaves. -/

namespace Sys2Proof.Machine

section
variable {s : State} {f x : List Byte}

/-! ## Taking an offered frame -/

theorem rxTakeEnabled_iff (s : State) : rxTakeEnabled s = true ↔ ∃ f, Offered s f := by
  constructor
  · intro h
    cases ho : s.env.rxOffer with
    | none => simp [rxTakeEnabled, ho] at h
    | some f =>
      simp only [rxTakeEnabled, ho, ackSlotBusy, frameOk, rxMax, Bool.and_eq_true, Bool.not_eq_true', Bool.or_eq_false_iff,
        decide_eq_true_eq, decide_eq_false_iff_not] at h
      obtain ⟨⟨hen, hack, hfree⟩, hlow, hhigh⟩ := h
      exact ⟨f, hen, hack, hfree, ho, hlow, of_decide_eq_true hhigh⟩
  · rintro ⟨f, h⟩
    have hlow := h.low
    have hhigh := h.high
    simp [rxTakeEnabled, h.enabled, ackSlotBusy, h.noAck, h.noFlight, h.offer, frameOk, rxMax, hlow, hhigh]

theorem rxTake_rests (h : ¬ ∃ f, Offered s f) : rxTake s = s := if_neg (mt (rxTakeEnabled_iff s).1 h)

/-- Settles O49: in each of the states named no frame may be taken. -/
theorem offeredFramesWait : Obligations.OfferedFramesWait := by
  intro s f
  refine ⟨rfl, fun h => congrArg _ (rxTake_rests ?_)⟩
  rintro ⟨f', ho⟩
  rcases h with h | h | h | h
  · simp [ho.enabled] at h
  · simp [ho.noAck] at h
  · exact ho.noFlight h
  · simp [ho.offer] at h

/-- A frame just taken, with `m` bytes unstuffed: what R190 has written when the checks begin. -/
def rxSeen (f : List Byte) (m : Nat) (s : State) : State :=
  { s with
    mem := bufWrite s.mem .fbufRx 0 f
    rx.fbufRxLen := f.length
    counters.rxFrames := s.counters.rxFrames + 1
    rxEvent := { event := .none, unstuffedLen := m }
    env.rxOffer := none }

theorem rxSeen_stores (m : Nat) (hm : memWf s.mem = true) (hf : f.length ≤ 64) : Stores s.mem (rxSeen f m s).mem 0x340 f :=
  stores_bufWrite hm .fbufRx 0 f (by simpa [bufSize] using hf)

section
variable (hm : memWf s.mem = true) (h : Offered s f)
include hm h

theorem rxTake_unstuffError (hx : unstuffFrame s.params f f.length = none) :
    rxTake s = dropFrame .unstuffError (rxSeen f 0 s) := by
  rw [rxTake_offered h, rxFrame_eq (by exact hm) h.high, hx]
  rfl

theorem rxTake_checks (hx : unstuffFrame s.params f f.length = some x) : rxTake s = rxChecks x (rxSeen f x.length s) := by
  rw [rxTake_offered h, rxFrame_eq (by exact hm) h.high, hx]
  rfl

end

/-! ## The checks -/

theorem rxChecks_formatError (h : ¬ FormatGood x) : rxChecks x s = dropFrame .formatError s := by
  rw [← formatOk_iff, Bool.not_eq_true] at h
  exact if_pos h

theorem rxChecks_addressMismatch (hf : FormatGood x) (h : ¬ AddressGood s x) :
    rxChecks x s = dropFrame .addressMismatch s := by
  rw [← formatOk_iff] at hf
  rw [← rxForMe_iff, Bool.not_eq_true] at h
  rw [rxChecks, if_neg (by simp [hf]), if_pos h]

theorem rxChecks_checksumError (hf : FormatGood x) (ha : AddressGood s x) (h : ¬ ChecksumGood x) :
    rxChecks x s = dropFrame .checksumError s := by
  rw [← formatOk_iff] at hf
  rw [← rxForMe_iff] at ha
  rw [← rxVerified_iff, Bool.not_eq_true] at h
  rw [rxChecks, if_neg (by simp [hf]), if_neg (by simp [ha]), if_pos h]

theorem rxChecks_good (h : FrameGood s x) : rxChecks x s = rxClass x s := by
  obtain ⟨hf, ha, hc⟩ := h
  rw [← formatOk_iff] at hf
  rw [← rxForMe_iff] at ha
  rw [← rxVerified_iff] at hc
  rw [rxChecks, if_neg (by simp [hf]), if_neg (by simp [ha]), if_neg (by simp [hc])]

/-! ## Control frames -/

theorem rxClass_control (h : (frameCh x).getLsbD 0 = false) : rxClass x s = rxControl x s :=
  if_neg (by rw [h]; exact Bool.false_ne_true)

theorem rxClass_data (h : (frameCh x).getLsbD 0 = true) : rxClass x s = rxData x s := if_pos h

theorem rxControl_ack (h : frameCl x = 0x01) : rxControl x s = rxAck x s := if_pos h

theorem rxControl_rtc (h : frameCl x = 0x02) :
    rxControl x s = { s with flags.rtcLatch := true, rxEvent.event := .controlRtc } := by
  rw [rxControl, if_neg (by rw [h]; decide), if_pos h]

theorem rxControl_ctc (h : frameCl x = 0x03) :
    rxControl x s = { s with flags.ctcLatch := true, rxEvent.event := .controlCtc } := by
  rw [rxControl, if_neg (by rw [h]; decide), if_neg (by rw [h]; decide), if_pos h]

theorem rxControl_unknown (h : frameCl x ∉ [0x01, 0x02, 0x03]) : rxControl x s = dropFrame .unknownControl s := by
  simp only [List.mem_cons, List.not_mem_nil, or_false, not_or] at h
  obtain ⟨h1, h2, h3⟩ := h
  rw [rxControl, if_neg h1, if_neg h2, if_neg h3]

/-! ## Data frames -/

/-- SEQ_MISMATCH rises at an unexpected sequence bit (R196). -/
def flagMismatch (x : List Byte) (s : State) : State :=
  { s with flags.seqMismatch := s.flags.seqMismatch || decide (rxSeq x ≠ s.rx.expected) }

theorem flagMismatch_of_ne (h : rxSeq x ≠ s.rx.expected) : flagMismatch x s = { s with flags.seqMismatch := true } := by
  simp [flagMismatch, h]

theorem flagMismatch_of_eq (h : rxSeq x = s.rx.expected) : flagMismatch x s = s := by simp [flagMismatch, h]

theorem rxData_busy (h : s.rx.ready = true) : rxData x s = dropFrame .rxBusy s := if_pos h

section
variable (hr : s.rx.ready = false)
include hr

theorem rxData_duplicate (hseq : rxSeq x ≠ s.rx.expected) (hck : s.ctrl.seqCheck = true) :
    rxData x s = { ackUnlessBcast (rxBcast x) (frameSrc x) (rxSeq x) (flagMismatch x s) with
      rxEvent.event := .duplicate } := by
  rw [rxData, if_neg (by simp [hr]), rxSequence, if_pos hseq, flagMismatch_of_ne hseq]
  exact if_pos hck

theorem rxData_capacity (h : rxSeq x = s.rx.expected ∨ s.ctrl.seqCheck = false) :
    rxData x s = rxCapacity x (flagMismatch x s) := by
  rw [rxData, if_neg (by simp [hr]), rxSequence]
  by_cases hseq : rxSeq x = s.rx.expected
  · rw [if_neg (not_not.2 hseq), flagMismatch_of_eq hseq]
  · have hck : s.ctrl.seqCheck = false := h.resolve_left hseq
    rw [if_pos hseq, flagMismatch_of_ne hseq]
    exact if_neg (by simp [hck])

end

theorem rxCapacity_overflow (h : 128 < s.rx.offset + frameLength x) :
    rxCapacity x s = dropFrame .overflow { s with rx := { s.rx with offset := 0, expected := false } } := if_pos h

theorem rxCapacity_accepts (h : s.rx.offset + frameLength x ≤ 128) : rxCapacity x s = rxAccept x s :=
  if_neg (Nat.not_lt.2 h)

/-- An accepted frame's data appended to PBUF_RX and its ACK queued (R197). -/
def rxAppend (x : List Byte) (s : State) : State :=
  ackUnlessBcast (rxBcast x) (frameSrc x) (rxSeq x)
    { writeBuf s .pbufRx s.rx.offset (frameData x) with rx.offset := s.rx.offset + frameLength x }

theorem rxAccept_more (h : rxFinal x = false) : rxAccept x s =
    { rxAppend x s with
      rx := { (rxAppend x s).rx with expected := !(rxAppend x s).rx.expected }, rxEvent.event := .moreFramesExpected } :=
  if_neg (by simp [h])

theorem rxAccept_final (h : rxFinal x = true) : rxAccept x s =
    deliverPacket (rxAppend x s).rx.offset (frameSrc x) (rxBcast x) { rxAppend x s with
      rx := { (rxAppend x s).rx with offset := 0, expected := false }, rxEvent.event := .finalFrame } :=
  if_pos h

end

end Sys2Proof.Machine
end

section
/-! What taking a frame leaves, end by end: the statements of R190 to R199. -/

namespace Sys2Proof.Machine

section
variable {s : State} {f x : List Byte}

theorem runEvent_rxTake {t : State} (h : rxTake s = t) : runEvent .rxTake s = .next t := congrArg _ h

/-! ## Dropped frames -/

theorem dropFrame_rxSeen_dropped (hm : memWf s.mem = true) (hf : f.length ≤ 64) (m : Nat) (ev : RxCode) :
    Dropped s f m ev (dropFrame ev (rxSeen f m s)) := by
  have herr : (s.flags.rxError || decide (ev ≠ .addressMismatch)) = if ev = .addressMismatch then s.flags.rxError else true := by
    by_cases h : ev = .addressMismatch <;> simp [h]
  refine ⟨rxSeen_stores m hm hf, ?_⟩
  rw [← herr, dropFrame, rxSeen]

/-- A frame whose checks end in a drop is dropped. -/
theorem rxTake_drops (hm : memWf s.mem = true) (h : Offered s f) (hx : unstuffFrame s.params f f.length = some x)
    {ev : RxCode} (hev : rxChecks x (rxSeen f x.length s) = dropFrame ev (rxSeen f x.length s)) :
    ∃ t, runEvent .rxTake s = .next t ∧ Dropped s f x.length ev t :=
  ⟨_, runEvent_rxTake ((rxTake_checks hm h hx).trans hev), dropFrame_rxSeen_dropped hm h.high x.length ev⟩

/-- The checks do not depend on what taking the frame has written. -/
theorem FrameGood.rxSeen (h : FrameGood s x) (m : Nat) : FrameGood (rxSeen f m s) x := { h with }

/-- Settles O50: each check is reached when those before it pass, and what it drops has only been latched. -/
theorem badFramesAreDropped : Obligations.BadFramesAreDropped := by
  intro s f hm ho
  refine ⟨fun hx => ⟨_, runEvent_rxTake (rxTake_unstuffError hm ho hx), dropFrame_rxSeen_dropped hm ho.high 0 _⟩, ?_⟩
  intro x hx drops
  have hdrops (ev) : rxChecks x (rxSeen f x.length s) = dropFrame ev (rxSeen f x.length s) → drops ev := rxTake_drops hm ho hx
  have hgood (h : FrameGood s x) := rxChecks_good (h.rxSeen (f := f) x.length)
  refine ⟨fun hf => hdrops _ (rxChecks_formatError hf), fun hf ha => hdrops _ (rxChecks_addressMismatch hf ha),
    fun hf ha hc => hdrops _ (rxChecks_checksumError hf ha hc), fun hg hcls hcl => hdrops _ ?_, fun hg hcls hr => hdrops _ ?_,
    fun hg hcls hr hlen hseq => ?_⟩
  · rw [hgood hg, rxClass_control hcls, rxControl_unknown hcl]
  · rw [hgood hg, rxClass_data hcls, rxData_busy (by exact hr)]
  · refine ⟨_, runEvent_rxTake (rxTake_checks hm ho hx), ?_⟩
    rw [hgood hg, rxClass_data hcls, rxData_capacity (s := rxSeen f x.length s) hr hseq, rxCapacity_overflow (by exact hlen)]
    exact dropFrame_rxSeen_dropped (s := { s with
      rx := { s.rx with offset := 0, expected := false }
      flags.seqMismatch := s.flags.seqMismatch || decide (rxSeq x ≠ s.rx.expected) }) hm ho.high x.length .overflow

/-! ## Good frames, by class -/

section
variable (hm : memWf s.mem = true) (ho : Offered s f) (hx : unstuffFrame s.params f f.length = some x) (hg : FrameGood s x)
include hm ho hx hg

theorem rxTake_control (hcls : (frameCh x).getLsbD 0 = false) : rxTake s = rxControl x (rxSeen f x.length s) := by
  rw [rxTake_checks hm ho hx, rxChecks_good (hg.rxSeen _), rxClass_control hcls]

theorem rxTake_data (hcls : (frameCh x).getLsbD 0 = true) : rxTake s = rxData x (rxSeen f x.length s) := by
  rw [rxTake_checks hm ho hx, rxChecks_good (hg.rxSeen _), rxClass_data hcls]

end

/-! ## Control frames -/

/-- Settles O51: each control frame by its CONTROL_LOW. -/
theorem controlFramesAreLatched : Obligations.ControlFramesAreLatched := by
  intro s f x hm ho hx hg hcls
  have hchecks := rxTake_control hm ho hx hg hcls
  refine ⟨(rxSeen f x.length s).mem, rxSeen_stores _ hm ho.high, fun hcl => ?_, fun hcl => ?_, fun hcl => ?_⟩
  · rw [runEvent, hchecks, rxControl_ack hcl]; rfl
  · rw [runEvent, hchecks, rxControl_rtc hcl]; rfl
  · rw [runEvent, hchecks, rxControl_ctc hcl]; rfl

/-! ## Acknowledgements -/

/-- The ACK frame reads the parameters, CTRL and ADDR. -/
theorem ackFrame_congr {t : State} (hparams : t.params = s.params) (hctrl : t.ctrl = s.ctrl) (haddr : t.addr = s.addr)
    (d : Byte) (sq : Bool) : ackFrame t d sq = ackFrame s d sq := by
  simp only [ackFrame, buildFrame, frameInterior, hparams, hctrl, haddr]

theorem ackFrame_length_le (s : State) (d : Byte) (sq : Bool) : (ackFrame s d sq).length ≤ 16 := (ackFrameLayout s d sq).2.2

theorem queueAck_stores (hm : memWf s.mem = true) (d : Byte) (sq : Bool) :
    Stores s.mem (queueAck d sq s).mem 0x380 (ackFrame s d sq) :=
  stores_bufWrite hm .abuf 0 (ackFrame s d sq) (by simpa [bufSize] using ackFrame_length_le s d sq)

theorem rxBcast_iff (x : List Byte) : rxBcast x = true ↔ x.getD 2 0 = 0xFF := decide_eq_true_iff

theorem rxBcast_of_ne (h : x.getD 2 0 ≠ 0xFF) : rxBcast x = false := decide_eq_false h

/-- Queueing an ACK changes ABUF and its two marks only (R196, R197). -/
theorem ackUnlessBcast_frame (x : List Byte) (d : Byte) (sq : Bool) (s : State) :
    ackUnlessBcast (rxBcast x) d sq s = { s with
      mem := (ackUnlessBcast (rxBcast x) d sq s).mem
      port := if x.getD 2 0 = 0xFF then s.port
        else { s.port with abufLen := (ackFrame s d sq).length, ackPending := true } } := by
  by_cases hd : x.getD 2 0 = 0xFF
  · rw [if_pos hd, (rxBcast_iff x).2 hd]; rfl
  · rw [if_neg hd, rxBcast_of_ne hd]; rfl

theorem ackUnlessBcast_mem (hm : memWf s.mem = true) (x : List Byte) (d : Byte) (sq : Bool) :
    if x.getD 2 0 = 0xFF then (ackUnlessBcast (rxBcast x) d sq s).mem = s.mem
    else Stores s.mem (ackUnlessBcast (rxBcast x) d sq s).mem 0x380 (ackFrame s d sq) := by
  by_cases hd : x.getD 2 0 = 0xFF
  · rw [if_pos hd, (rxBcast_iff x).2 hd]; rfl
  · rw [if_neg hd, rxBcast_of_ne hd]; exact queueAck_stores hm d sq

/-! ## Data frames -/

/-- Settles O52: a duplicate is flagged and acknowledged again. -/
theorem duplicatesAreReacknowledged : Obligations.DuplicatesAreReacknowledged := by
  intro s f x hm ho hx hg hcls hr hseq hck
  have hchecks := rxTake_data hm ho hx hg hcls
  rw [rxData_duplicate (s := rxSeen f x.length s) hr hseq hck] at hchecks
  refine ⟨_, (rxSeen f x.length s).mem, rxSeen_stores _ hm ho.high, runEvent_rxTake hchecks, ?_⟩
  intro w seen
  have hw : ackFrame (flagMismatch x (rxSeen f x.length s)) (frameSrc x) (rxSeq x) = w :=
    ackFrame_congr rfl rfl rfl _ _
  have hmem := ackUnlessBcast_mem (s := flagMismatch x (rxSeen f x.length s)) (memWf_bufWrite hm _ _ _) x
    (frameSrc x) (rxSeq x)
  rw [hw] at hmem
  refine ⟨fun hd => ?_, fun hd => ?_⟩
  · rw [if_pos hd] at hmem
    rw [ackUnlessBcast_frame, hmem, if_pos hd, flagMismatch_of_ne (s := rxSeen f x.length s) hseq]; rfl
  · rw [if_neg hd] at hmem
    refine ⟨hmem, ?_⟩
    rw [ackUnlessBcast_frame, hw, if_neg hd, flagMismatch_of_ne (s := rxSeen f x.length s) hseq]; rfl

theorem rxAppend_frame (x : List Byte) (s : State) : rxAppend x s = { s with
    mem := (rxAppend x s).mem
    rx.offset := s.rx.offset + frameLength x
    port := if x.getD 2 0 = 0xFF then s.port
      else { s.port with abufLen := (ackFrame s (frameSrc x) (rxSeq x)).length, ackPending := true } } := by
  rw [rxAppend, ackUnlessBcast_frame]
  rfl

theorem rxAppend_mem (hm : memWf s.mem = true) (x : List Byte) :
    if x.getD 2 0 = 0xFF then (rxAppend x s).mem = bufWrite s.mem .pbufRx s.rx.offset (frameData x)
    else Stores (bufWrite s.mem .pbufRx s.rx.offset (frameData x)) (rxAppend x s).mem 0x380
      (ackFrame s (frameSrc x) (rxSeq x)) :=
  ackUnlessBcast_mem (s := { writeBuf s .pbufRx s.rx.offset (frameData x) with rx.offset := s.rx.offset + frameLength x })
    (memWf_bufWrite hm _ _ _) x (frameSrc x) (rxSeq x)

theorem frameData_length_le (x : List Byte) : (frameData x).length ≤ frameLength x := List.length_take_le _ _

/-- Settles O53: an accepted frame is appended and acknowledged, and delivered when it is the last one. -/
theorem dataFramesAreReassembled : Obligations.DataFramesAreReassembled := by
  intro s f x hm ho hx hg hcls hr hseq hlen
  have hchecks := rxTake_data hm ho hx hg hcls
  rw [rxData_capacity (s := rxSeen f x.length s) hr hseq, rxCapacity_accepts (by exact hlen)] at hchecks
  have hm1 : memWf (rxSeen f x.length s).mem = true := memWf_bufWrite hm _ _ _
  refine ⟨(rxSeen f x.length s).mem, bufWrite (rxSeen f x.length s).mem .pbufRx s.rx.offset (frameData x),
    (rxAppend x (flagMismatch x (rxSeen f x.length s))).mem, rxSeen_stores _ hm ho.high,
    stores_bufWrite hm1 .pbufRx _ _ (Nat.le_trans (Nat.add_le_add_left (frameData_length_le x) _) hlen), ?_⟩
  intro bc sq w len base
  have hw : ackFrame (flagMismatch x (rxSeen f x.length s)) (frameSrc x) (rxSeq x) = w := ackFrame_congr rfl rfl rfl _ _
  have hframe := rxAppend_frame x (flagMismatch x (rxSeen f x.length s))
  rw [hw] at hframe
  refine ⟨?_, fun hfin => ?_, fun hfin => ?_⟩
  · have hmem := rxAppend_mem (s := flagMismatch x (rxSeen f x.length s)) hm1 x
    rwa [hw] at hmem
  · refine runEvent_rxTake (hchecks.trans ?_)
    rw [rxAccept_more hfin, hframe]
    rfl
  · refine runEvent_rxTake (hchecks.trans ?_)
    rw [rxAccept_final hfin, hframe]
    rfl

end

end Sys2Proof.Machine
end

section
/-! Every way a frame can end, once and for all, and what holds of each of them: the event, the counters and the
acknowledgement of R198 and R200. -/

namespace Sys2Proof.Machine

/-! ## Frames of the operations -/

/-- ArqCheckAck changes the sender, its frame and the ACK latch only. -/
theorem arqCheckAck_frame (s : State) : arqCheckAck s = { s with
    mem := (arqCheckAck s).mem, tx := (arqCheckAck s).tx, txResult := (arqCheckAck s).txResult
    flags.txDone := (arqCheckAck s).flags.txDone, ack.latched := (arqCheckAck s).ack.latched
    port := { s.port with
      dataPending := (arqCheckAck s).port.dataPending, fbufTxLen := (arqCheckAck s).port.fbufTxLen
      abortPending := (arqCheckAck s).port.abortPending } } := by
  rcases arqCheckAck_cases s with h | ⟨-, h | h | ⟨-, h⟩⟩
  · rw [h]
  · rw [h]
  · rw [h]; rfl
  · rw [h, launchFragment_eq]; rfl

/-- Delivery changes records, RX_INFO, RX_READY, PKT_STATUS and two flags only (R224). -/
theorem deliverPacket_frame (len : Nat) (src : Byte) (bc : Bool) (s : State) : deliverPacket len src bc s = { s with
    ls := (deliverPacket len src bc s).ls, nb := (deliverPacket len src bc s).nb
    flags := { s.flags with
      topoChanged := (deliverPacket len src bc s).flags.topoChanged
      rxError := (deliverPacket len src bc s).flags.rxError }
    pktStatus := (deliverPacket len src bc s).pktStatus, rxInfo := (deliverPacket len src bc s).rxInfo
    rx.ready := (deliverPacket len src bc s).rx.ready } := by
  have hparse := parsePacket_frame (bufBytes s.mem .pbufRx 0 len) src s
  unfold deliverPacket
  generalize parsePacket (bufBytes s.mem .pbufRx 0 len) src s = q at hparse ⊢
  obtain ⟨o, t⟩ := q
  dsimp only at hparse ⊢
  rw [hparse]
  split_ifs <;> rfl

/-! ## The ends of a frame -/

/-- How a frame with the interior `x`, taken in `s`, may end: dropped by one of the checks, latched as a control frame, a
duplicate, or accepted (R191-R197). -/
inductive RxEnd (x : List Byte) (s : State) : State → Prop
  | dropped {ev : RxCode} (h : ev ∈ [.formatError, .addressMismatch, .checksumError, .unknownControl, .rxBusy]) :
    RxEnd x s (dropFrame ev s)
  | overflow : RxEnd x s (dropFrame .overflow { flagMismatch x s with rx := { s.rx with offset := 0, expected := false } })
  | ack : RxEnd x s (rxAck x s)
  | rtc : RxEnd x s { s with flags.rtcLatch := true, rxEvent.event := .controlRtc }
  | ctc : RxEnd x s { s with flags.ctcLatch := true, rxEvent.event := .controlCtc }
  | duplicate (ha : AddressGood s x) :
    RxEnd x s { ackUnlessBcast (rxBcast x) (frameSrc x) (rxSeq x) (flagMismatch x s) with rxEvent.event := .duplicate }
  | accepted (ha : AddressGood s x) (hlen : s.rx.offset + frameLength x ≤ 128) : RxEnd x s (rxAccept x (flagMismatch x s))

theorem rxControl_end (x : List Byte) (s : State) : RxEnd x s (rxControl x s) := by
  by_cases h1 : frameCl x = 0x01
  · rw [rxControl_ack h1]; exact .ack
  by_cases h2 : frameCl x = 0x02
  · rw [rxControl_rtc h2]; exact .rtc
  by_cases h3 : frameCl x = 0x03
  · rw [rxControl_ctc h3]; exact .ctc
  · rw [rxControl_unknown (by simp only [List.mem_cons, List.not_mem_nil, or_false]; tauto)]; exact .dropped (by decide)

theorem rxData_end {x : List Byte} {s : State} (ha : AddressGood s x) : RxEnd x s (rxData x s) := by
  cases hr : s.rx.ready with
  | true => rw [rxData_busy hr]; exact .dropped (by decide)
  | false =>
    by_cases hdup : rxSeq x ≠ s.rx.expected ∧ s.ctrl.seqCheck = true
    · rw [rxData_duplicate hr hdup.1 hdup.2]; exact .duplicate ha
    · have hseq : rxSeq x = s.rx.expected ∨ s.ctrl.seqCheck = false := by
        rw [← Bool.not_eq_true]; tauto
      rw [rxData_capacity hr hseq]
      rcases Nat.lt_or_ge 128 (s.rx.offset + frameLength x) with hlen | hlen
      · rw [rxCapacity_overflow (by exact hlen)]; exact .overflow
      · rw [rxCapacity_accepts (by exact hlen)]; exact .accepted ha hlen

/-- Every frame that unstuffs ends in one of these ways. -/
theorem rxChecks_end (x : List Byte) (s : State) : RxEnd x s (rxChecks x s) := by
  by_cases hf : FormatGood x
  · by_cases ha : AddressGood s x
    · by_cases hc : ChecksumGood x
      · rw [rxChecks_good ⟨hf, ha, hc⟩]
        cases hcls : (frameCh x).getLsbD 0 with
        | true => rw [rxClass_data hcls]; exact rxData_end ha
        | false => rw [rxClass_control hcls]; exact rxControl_end x s
      · rw [rxChecks_checksumError hf ha hc]; exact .dropped (by decide)
    · rw [rxChecks_addressMismatch hf ha]; exact .dropped (by decide)
  · rw [rxChecks_formatError hf]; exact .dropped (by decide)

/-! ## One event, one count -/

/-- From `s`, where the checks begin, to `t`: an event is written, a drop is counted and nothing else is, and an ACK is
queued only after an accepted or duplicate frame for this node alone (R198, R200). -/
structure EndsOnce (x : List Byte) (s t : State) : Prop where
  event : t.rxEvent.event ≠ .none
  env : t.env = s.env
  fbufRxLen : t.rx.fbufRxLen = s.rx.fbufRxLen
  frames : t.counters.rxFrames = s.counters.rxFrames
  drops : t.counters.rxDrops = s.counters.rxDrops + (if isDrop t.rxEvent.event then 1 else 0)
  error : isDrop t.rxEvent.event = true → t.rxEvent.event ≠ .addressMismatch → t.flags.rxError = true
  acked : t.port.ackPending = true → s.port.ackPending = true ∨
    t.rxEvent.event ∈ [.moreFramesExpected, .finalFrame, .duplicate] ∧ x.getD 2 0 = s.addr.myHw

section
variable {s t : State} {x : List Byte}

theorem dropFrame_endsOnce {ev : RxCode} (h : isDrop ev = true) : EndsOnce x s (dropFrame ev s) where
  event := by rintro rfl; exact absurd h (by decide)
  env := rfl
  fbufRxLen := rfl
  frames := rfl
  drops := by rw [dropFrame_rxEvent, if_pos h]; rfl
  error _ hne := by simpa using .inr hne
  acked := .inl

/-- An end that is no drop counts nothing more. -/
theorem endsOnce_of_counters (hne : t.rxEvent.event ≠ .none) (hdrop : isDrop t.rxEvent.event = false) (henv : t.env = s.env)
    (hlen : t.rx.fbufRxLen = s.rx.fbufRxLen) (hcount : t.counters = s.counters)
    (hack : t.port.ackPending = true → s.port.ackPending = true ∨
      t.rxEvent.event ∈ [.moreFramesExpected, .finalFrame, .duplicate] ∧ x.getD 2 0 = s.addr.myHw) : EndsOnce x s t where
  event := hne
  env := henv
  fbufRxLen := hlen
  frames := by rw [hcount]
  drops := by rw [hcount, hdrop]; simp
  error h := by rw [hdrop] at h; exact absurd h (by decide)
  acked := hack

/-- An ACK that is queued unless the frame is a broadcast goes to a frame for this node alone. -/
theorem acked_of_port (ha : AddressGood s x) {d : Byte} {sq : Bool}
    (h : (if x.getD 2 0 = 0xFF then s.port
      else { s.port with abufLen := (ackFrame s d sq).length, ackPending := true }).ackPending = true) :
    s.port.ackPending = true ∨ x.getD 2 0 = s.addr.myHw := by
  by_cases hd : x.getD 2 0 = 0xFF
  · rw [if_pos hd] at h; exact .inl h
  · exact .inr (ha.resolve_right hd)

theorem rxAccept_endsOnce (ha : AddressGood s x) : EndsOnce x s (rxAccept x s) := by
  cases hfin : rxFinal x with
  | true =>
    rw [rxAccept_final hfin, deliverPacket_frame, rxAppend_frame]
    exact endsOnce_of_counters nofun rfl rfl rfl rfl fun h => (acked_of_port ha h).imp_right (⟨by simp, ·⟩)
  | false =>
    rw [rxAccept_more hfin, rxAppend_frame]
    exact endsOnce_of_counters nofun rfl rfl rfl rfl fun h => (acked_of_port ha h).imp_right (⟨by simp, ·⟩)

theorem RxEnd.endsOnce (h : RxEnd x s t) : EndsOnce x s t := by
  cases h with
  | @dropped ev hev => exact dropFrame_endsOnce (by revert hev; cases ev <;> decide)
  | overflow =>
    exact { dropFrame_endsOnce (x := x) (s := { flagMismatch x s with rx := { s.rx with offset := 0, expected := false } })
      (ev := .overflow) rfl with }
  | ack =>
    rw [rxAck, arqCheckAck_frame]
    exact endsOnce_of_counters nofun rfl rfl rfl rfl .inl
  | rtc => exact endsOnce_of_counters nofun rfl rfl rfl rfl .inl
  | ctc => exact endsOnce_of_counters nofun rfl rfl rfl rfl .inl
  | duplicate ha =>
    rw [ackUnlessBcast_frame]
    exact endsOnce_of_counters nofun rfl rfl rfl rfl
      fun h => (acked_of_port (s := flagMismatch x s) ha h).imp_right (⟨by simp, ·⟩)
  | accepted ha hlen => exact { rxAccept_endsOnce (s := flagMismatch x s) ha with }

end

/-- Settles O56: by the end of the frame; no ACK waits when it is taken. -/
theorem everyTakenFrameHasOneEvent : Obligations.EveryTakenFrameHasOneEvent := by
  intro s f t hm ho ht
  cases ht
  cases hx : unstuffFrame s.params f f.length with
  | none =>
    rw [rxTake_unstuffError hm ho hx]
    have h : EndsOnce [] (rxSeen f 0 s) (dropFrame .unstuffError (rxSeen f 0 s)) := dropFrame_endsOnce rfl
    refine ⟨h.event, congrArg Env.rxOffer h.env, h.fbufRxLen, h.frames, h.drops, h.error, fun hack => ?_⟩
    exact absurd (ho.noAck.symm.trans hack) (by decide)
  | some x =>
    rw [rxTake_checks hm ho hx]
    have h := (rxChecks_end x (rxSeen f x.length s)).endsOnce
    refine ⟨h.event, congrArg Env.rxOffer h.env, h.fbufRxLen, h.frames, h.drops, h.error, fun hack => ?_⟩
    rcases h.acked hack with hold | ⟨hev, hd⟩
    · exact absurd (ho.noAck.symm.trans hold) (by decide)
    · exact ⟨hev, x, rfl, hd⟩

end Sys2Proof.Machine
end

section
/-! The sender invariants of R167, from the sender's own operations up to the step. -/

namespace Sys2Proof.Machine

/-! ## The sender between two frames -/

/-- A send in progress none of whose frames is pending or in flight: what holds while the sender awaits an ACK, where a
send starts, and where a data frame completes. -/
structure BetweenFrames (s : State) : Prop where
  noData : s.port.dataPending = false
  noFlight : s.port.txInflight ≠ .data
  noAbort : s.port.abortPending = false
  notOwned : s.tx.txOwned = false
  fragment : s.tx.fragIdx < s.tx.nfrag ∧ s.tx.nfrag ≤ 6
  notDone : s.flags.txDone = false

section
variable {s t : State}

theorem SenderInv.setCmdStatus (h : SenderInv s) (c : CmdStatus) : SenderInv { s with cmdStatus := c } := { h with }

theorem active_of_awaitAck (h : s.tx.arqState = .awaitAck) : Active s := by simp [Active, idleish, h]

theorem active_of_sending (h : s.tx.arqState = .sendingFragment) : Active s := by simp [Active, idleish, h]

theorem not_active (h : s.tx.arqState = .idle ∨ s.tx.arqState = .done) : ¬ Active s := by
  rw [Active, idleish_false]; exact not_not.2 h

theorem SenderInv.notDone_of_active (h : SenderInv s) (ha : Active s) : s.flags.txDone = false := by
  rw [← Bool.not_eq_true]
  exact fun hd => not_active (.inr (h.doneFlag hd)) ha

theorem SenderInv.noAbort_of_noFlight (h : SenderInv s) (hf : s.port.txInflight ≠ .data) : s.port.abortPending = false := by
  rw [← Bool.not_eq_true]
  exact fun ha => hf (h.abortInflight ha)

theorem SenderInv.betweenFrames (h : SenderInv s) (hst : s.tx.arqState = .awaitAck) : BetweenFrames s := by
  have hf : s.port.txInflight ≠ .data := fun hf => by simpa [hst] using h.inflightSending hf
  have ha := active_of_awaitAck hst
  exact {
    noData := h.pendingSending (by simp [hst])
    noFlight := hf
    noAbort := h.noAbort_of_noFlight hf
    notOwned := h.activeNotOwned ha
    fragment := h.activeFragment ha
    notDone := h.notDone_of_active ha }

/-! ## The three moves of a send -/

/-- A send that ends with no frame pending or in flight (R178). -/
theorem endSend_senderInv (code : TxCode) (hd : s.port.dataPending = false) (hf : s.port.txInflight ≠ .data) :
    SenderInv (endSend code s) where
  sendingHasOneFrame := nofun
  inflightSending h := absurd h hf
  pendingSending _ := hd
  abortInflight := nofun
  activeNotOwned h := absurd h (not_active (.inr rfl))
  activeFragment h := absurd h (not_active (.inr rfl))
  doneFlag _ := rfl

theorem BetweenFrames.endSend (h : BetweenFrames s) (code : TxCode) : SenderInv (endSend code s) :=
  endSend_senderInv code h.noData h.noFlight

theorem BetweenFrames.launchFragment (h : BetweenFrames s) : SenderInv (launchFragment s) where
  sendingHasOneFrame _ := .inl ⟨rfl, h.noFlight⟩
  inflightSending _ := rfl
  pendingSending hn := absurd rfl hn
  abortInflight ha := absurd (h.noAbort.symm.trans ha) (by decide)
  activeNotOwned _ := h.notOwned
  activeFragment _ := h.fragment
  doneFlag hd := absurd (h.notDone.symm.trans hd) (by decide)

theorem BetweenFrames.awaitAck (h : BetweenFrames s) : SenderInv (awaitAck s) where
  sendingHasOneFrame := nofun
  inflightSending hf := absurd hf h.noFlight
  pendingSending _ := h.noData
  abortInflight ha := absurd (h.noAbort.symm.trans ha) (by decide)
  activeNotOwned _ := h.notOwned
  activeFragment _ := h.fragment
  doneFlag hd := absurd (h.notDone.symm.trans hd) (by decide)

/-! ## The sender's steps -/

theorem arqCheckAck_senderInv (h : SenderInv s) : SenderInv (arqCheckAck s) := by
  rcases arqCheckAck_cases s with hc | ⟨hst, hc | hc | ⟨hmore, hc⟩⟩
  all_goals rw [hc]
  · exact h
  · exact { h with }
  · exact endSend_senderInv _ (h.betweenFrames hst).noData (h.betweenFrames hst).noFlight
  · have hb := h.betweenFrames hst
    have hnext : BetweenFrames (nextFragment (countFragment s)) :=
      { hb with fragment := ⟨Nat.lt_of_le_of_ne hb.fragment.1 hmore, hb.fragment.2⟩ }
    exact hnext.launchFragment

theorem txIssue_senderInv (h : SenderInv s) : SenderInv (txIssue s) := by
  rcases txIssue_cases s with hc | ⟨hfree, hc | ⟨hd, hc⟩⟩
  all_goals rw [hc]
  · exact h
  · have hf : s.port.txInflight ≠ .data := by simp [hfree]
    exact { h with
      sendingHasOneFrame := fun hst => .inl ⟨((h.sendingHasOneFrame hst).resolve_right fun hr => hf hr.2).1, nofun⟩
      inflightSending := nofun
      abortInflight := fun ha => absurd (h.abortInflight ha) hf }
  · have hst : s.tx.arqState = .sendingFragment := by
      by_contra hn
      simp [h.pendingSending hn] at hd
    exact { h with
      sendingHasOneFrame := fun _ => .inr ⟨rfl, rfl⟩
      inflightSending := fun _ => hst
      pendingSending := fun _ => rfl
      abortInflight := fun _ => rfl }

theorem dataCompletion_senderInv (ok : Bool) (h : BetweenFrames { s with port.abortPending := false }) :
    SenderInv (dataCompletion ok s) := by
  rcases dataCompletion_cases ok s with ⟨code, hc⟩ | hc | ⟨ha, hc⟩
  all_goals rw [hc]
  · exact endSend_senderInv code h.noData h.noFlight
  · exact endSend_senderInv _ h.noData h.noFlight
  · have hb : BetweenFrames s := { h with noAbort := ha }
    exact arqCheckAck_senderInv hb.awaitAck

/-- The completion of a data frame finds the sender in SENDING_FRAGMENT, with no other frame (R167 (a), (b)). -/
theorem SenderInv.freePort_betweenFrames (h : SenderInv s) (hf : s.port.txInflight = .data) :
    BetweenFrames { freePort s with port.abortPending := false } := by
  have ha := active_of_sending (h.inflightSending hf)
  have hone := (h.sendingHasOneFrame (h.inflightSending hf)).resolve_left fun hl => hl.2 hf
  exact {
    noData := hone.1
    noFlight := nofun
    noAbort := rfl
    notOwned := h.activeNotOwned ha
    fragment := h.activeFragment ha
    notDone := h.notDone_of_active ha }

/-- The port is freed of a frame that is no data frame. -/
theorem freePort_senderInv (h : SenderInv s) (hf : s.port.txInflight ≠ .data) : SenderInv (freePort s) :=
  { h with
    sendingHasOneFrame := fun hst => .inl ⟨((h.sendingHasOneFrame hst).resolve_right fun hr => hf hr.2).1, nofun⟩
    inflightSending := nofun
    abortInflight := fun ha => absurd (h.abortInflight ha) hf }

theorem txDone_senderInv (ok : Bool) (h : SenderInv s) : SenderInv (txDone ok s) := by
  cases hf : s.port.txInflight with
  | none => rw [txDone_none ok hf]; exact h
  | ack => rw [txDone_control ok (.inl hf)]; exact freePort_senderInv h (by simp [hf])
  | orphan => rw [txDone_control ok (.inr hf)]; exact freePort_senderInv h (by simp [hf])
  | data => rw [txDone_data ok hf]; exact dataCompletion_senderInv ok (h.freePort_betweenFrames hf)

theorem msTick_senderInv (h : SenderInv s) : SenderInv (msTick s) := by
  rcases msTick_cases s with hc | ⟨hst, hc | hc | hc⟩
  all_goals rw [hc]
  · exact h
  · exact { h with }
  · have hretry : BetweenFrames (countRetry s) := { h.betweenFrames hst with }
    exact hretry.launchFragment
  · exact endSend_senderInv _ (h.betweenFrames hst).noData (h.betweenFrames hst).noFlight

/-! ## Commands -/

theorem abortSend_senderInv (h : SenderInv s) : SenderInv (abortSend s) := by
  cases hst : s.tx.arqState with
  | idle => rw [abortSend_idleish (.inl hst)]; exact h
  | done => rw [abortSend_idleish (.inr hst)]; exact h
  | awaitAck => rw [abortSend_awaitAck hst]; exact (h.betweenFrames hst).endSend _
  | sendingFragment =>
    rcases h.sendingHasOneFrame hst with ⟨hd, hf⟩ | ⟨hd, hf⟩
    · rw [abortSend_pending hst hd]
      exact endSend_senderInv _ rfl hf
    · rw [abortSend_inFlight hst hd]
      exact { h with abortInflight := fun _ => hf }

/-- An accepted ARQ_SEND starts from IDLE or DONE, so no other frame is pending or in flight. -/
theorem startSend_betweenFrames (h : SenderInv s) (hc : arqSendCheck s = none) : BetweenFrames (startSend s) := by
  obtain ⟨-, hidle, -, ⟨hle, -⟩, hpos, -⟩ := (arqSendCheck_none s).1 hc
  have hst : s.tx.arqState ≠ .sendingFragment := by rcases (idleish_true s).1 hidle with h' | h' <;> simp [h']
  have hfrag : fragCount (s.arg0.toNat / 256 % 256) ≤ 6 ∧ 0 < fragCount (s.arg0.toNat / 256 % 256) := by
    simp only [fragCount, maxFrag]; omega
  rw [← arg0High_toNat] at hfrag
  exact {
    noData := h.pendingSending hst
    noFlight := fun hf => hst (h.inflightSending hf)
    noAbort := rfl
    notOwned := rfl
    fragment := ⟨hfrag.2, hfrag.1⟩
    notDone := rfl }

/-- ARQ_SEND fails, or starts a send whose length passed the checks. -/
theorem exec_arqSend_cases (h : exec .arqSend s = .next t) :
    t = { s with cmdStatus := t.cmdStatus } ∨
      arqSendCheck s = none ∧ t = { launchFragment (startSend s) with cmdStatus := t.cmdStatus } := by
  cases hc : arqSendCheck s with
  | some code => rw [exec_arqSend_rejects hc] at h; cases h; exact .inl rfl
  | none => rw [exec_arqSend_accepts hc] at h; cases h; exact .inr ⟨rfl, rfl⟩

/-- TX_ALLOC and TX_DISCARD fail, claim PBUF_TX for at most 128 bytes while no send is active, or give it back. -/
theorem exec_txBuffer_cases {i : Instr} (h : exec i s = .next t) (hi : i ∈ [.txAlloc, .txDiscard]) :
    t = { s with cmdStatus := t.cmdStatus } ∨
    (s.tx.arqState = .idle ∨ s.tx.arqState = .done) ∧
      (∃ n ≤ 128, t = { s with tx := { s.tx with txOwned := true, allocLen := n }, cmdStatus := t.cmdStatus }) ∨
    t = { s with tx := { s.tx with txOwned := false, allocLen := 0 }, cmdStatus := t.cmdStatus } := by
  simp only [List.mem_cons, List.not_mem_nil, or_false] at hi
  rcases hi with rfl | rfl
  · simp only [exec, execTxAlloc] at h
    split_ifs at h with hbusy hzero hbig
    · left; rw [(raiseCmdError_next ..).1 h]
    · left; rw [(raiseCmdError_next ..).1 h]
    · left; rw [(raiseCmdError_next ..).1 h]
    · exact .inr (.inl ⟨by simpa using hbusy, _, Nat.not_lt.1 hbig, by rw [(finishOk_next ..).1 h]⟩)
  · simp only [exec, execTxDiscard] at h
    split at h
    · left; rw [(raiseCmdError_next ..).1 h]
    · right; right; rw [(finishOk_next ..).1 h]

theorem softReset_senderInv (s : State) : SenderInv (softReset s) := by
  have hf : (softReset s).port.txInflight ≠ .data := by
    show orphaned s.port.txInflight ≠ .data
    cases s.port.txInflight <;> decide
  exact {
    sendingHasOneFrame := nofun
    inflightSending := fun h => absurd h hf
    pendingSending := fun _ => rfl
    abortInflight := nofun
    activeNotOwned := fun h => absurd h (not_active (.inl rfl))
    activeFragment := fun h => absurd h (not_active (.inl rfl))
    doneFlag := nofun }

theorem exec_senderInv {i : Instr} (hx : exec i s = .next t) (h : SenderInv s) : SenderInv t := by
  rcases instr_group i with hq | rfl | hr | hb | rfl | rfl | rfl | hc | rfl
  · rw [exec_query_frame hx hq]; exact { h with }
  · rw [exec_readLsRecord_frame hx]; exact { h with }
  · rw [exec_record_frame hx hr]; exact { h with }
  · rcases exec_txBuffer_cases hx hb with ht | ⟨hidle, n, -, ht⟩ | ht
    · rw [ht]; exact { h with }
    · rw [ht]; exact { h with activeNotOwned := fun ha => absurd ha (not_active hidle) }
    · rw [ht]; exact { h with activeNotOwned := fun _ => rfl }
  · rw [exec_rxRelease_frame hx]; exact { h with }
  · rw [(finishOk_next .arqAbort (abortSend s) t).1 hx]; exact (abortSend_senderInv h).setCmdStatus _
  · rcases exec_arqSend_cases hx with ht | ⟨hc, ht⟩
    · rw [ht]; exact { h with }
    · rw [ht]; exact (startSend_betweenFrames h hc).launchFragment.setCmdStatus _
  · rw [exec_codec_frame hx hc]; exact { h with }
  · rw [exec_softReset_eq hx]; exact (softReset_senderInv s).setCmdStatus _

/-! ## The receive path -/

/-- From `s` to `t` only the receiver, the ACK to send, what a parsed packet changes, memory, the receive counters and the
receiver's flags may have changed: nothing of the sender. -/
def ReceiverOnly (s t : State) : Prop := t = { s with
  mem := t.mem, ls := t.ls, nb := t.nb, pktStatus := t.pktStatus, rxInfo := t.rxInfo, rxEvent := t.rxEvent, rx := t.rx
  counters := { s.counters with rxFrames := t.counters.rxFrames, rxDrops := t.counters.rxDrops }
  flags := { t.flags with txDone := s.flags.txDone }
  port := { s.port with abufLen := t.port.abufLen, ackPending := t.port.ackPending } }

theorem ReceiverOnly.trans {u : State} (h : ReceiverOnly s t) (h' : ReceiverOnly t u) : ReceiverOnly s u := by
  unfold ReceiverOnly at *
  rw [h', h]

theorem ReceiverOnly.senderInv (hr : ReceiverOnly s t) (h : SenderInv s) : SenderInv t := by
  rw [hr]; exact { h with }

theorem ackUnlessBcast_receiverOnly (bc : Bool) (d : Byte) (sq : Bool) (s : State) :
    ReceiverOnly s (ackUnlessBcast bc d sq s) := by
  cases bc <;> rfl

theorem setRx_receiverOnly (rx : Receiver) (ev : RxEvent) (s : State) :
    ReceiverOnly s { s with rx := rx, rxEvent := ev } := rfl

theorem deliverPacket_receiverOnly (len : Nat) (src : Byte) (bc : Bool) (s : State) :
    ReceiverOnly s (deliverPacket len src bc s) := by
  rw [deliverPacket_frame]; rfl

theorem rxAccept_receiverOnly (x : List Byte) (s : State) : ReceiverOnly s (rxAccept x s) := by
  have hstore : ReceiverOnly s
    { writeBuf s .pbufRx s.rx.offset (frameData x) with rx.offset := s.rx.offset + frameLength x } := rfl
  have happ : ReceiverOnly s (rxAppend x s) := hstore.trans (ackUnlessBcast_receiverOnly ..)
  refine happ.trans ?_
  cases hfin : rxFinal x with
  | true => rw [rxAccept_final hfin]; exact (setRx_receiverOnly ..).trans (deliverPacket_receiverOnly ..)
  | false => rw [rxAccept_more hfin]; exact setRx_receiverOnly ..

/-- Only an ACK that is received reaches the sender. -/
theorem RxEnd.receiverOnly {x : List Byte} (h : RxEnd x s t) : t = rxAck x s ∨ ReceiverOnly s t := by
  cases h with
  | dropped hev => exact .inr rfl
  | overflow => exact .inr rfl
  | ack => exact .inl rfl
  | rtc => exact .inr rfl
  | ctc => exact .inr rfl
  | duplicate ha =>
    have hflag : ReceiverOnly s (flagMismatch x s) := rfl
    exact .inr ((hflag.trans (ackUnlessBcast_receiverOnly ..)).trans rfl)
  | accepted ha hlen =>
    have hflag : ReceiverOnly s (flagMismatch x s) := rfl
    exact .inr (hflag.trans (rxAccept_receiverOnly ..))

theorem rxAck_senderInv (x : List Byte) (h : SenderInv s) : SenderInv (rxAck x s) := by
  have hlatch : SenderInv { s with
    ack := { latched := true, seq := rxSeq x, src := frameSrc x }, rxEvent.event := .controlAck } := { h with }
  exact arqCheckAck_senderInv hlatch

theorem RxEnd.senderInv {x : List Byte} (he : RxEnd x s t) (h : SenderInv s) : SenderInv t := by
  rcases he.receiverOnly with rfl | hr
  · exact rxAck_senderInv x h
  · exact hr.senderInv h

/-- All that taking a frame can do (R190): nothing, or the frame fails to unstuff, or its checks run. -/
theorem rxTake_cases (s : State) :
    rxTake s = s ∨ ∃ f, Offered s f ∧
      (rxTake s = dropFrame .unstuffError (rxSeen f 0 s) ∨
        ∃ x, x.length + 2 ≤ f.length ∧ RxEnd x (rxSeen f x.length s) (rxTake s)) := by
  by_cases h : ∃ f, Offered s f
  · obtain ⟨f, ho⟩ := h
    refine .inr ⟨f, ho, ?_⟩
    rw [rxTake_offered ho, rxFrame]
    dsimp only
    split
    · exact .inl rfl
    · rename_i x hx
      exact .inr ⟨x, (unstuffFrame_length hx).2.1, rxChecks_end x (rxSeen f x.length s)⟩
  · exact .inl (rxTake_rests h)

theorem rxTake_senderInv (h : SenderInv s) : SenderInv (rxTake s) := by
  have hseen (f : List Byte) (m : Nat) : SenderInv (rxSeen f m s) := { h with }
  rcases rxTake_cases s with hc | ⟨f, -, hc | ⟨x, -, he⟩⟩
  · rw [hc]; exact h
  · rw [hc]; exact { hseen f 0 with }
  · exact he.senderInv (hseen f x.length)

/-! ## Host accesses -/

/-- A write to CTRL sets CTRL, and may abort the send and discard a waiting ACK (R25, R296). -/
theorem writeCtrl_cases (v : Word) (s : State) : ∃ c, writeCtrl v s = { s with ctrl := c } ∨
    writeCtrl v s = { abortSend { s with ctrl := c } with port.ackPending := false } := by
  refine ⟨(writeCtrl v s).ctrl, ?_⟩
  by_cases h : s.ctrl.enable = false ∨ v.toNat % 2 = 1
  · exact .inl (writeCtrl_keeping h)
  · have hclear := writeCtrl_clearing (v := v) (s := s) (by simpa using mt Or.inl h) (by omega)
    rw [disableEffects_eq] at hclear
    exact .inr hclear

theorem writeCtrl_senderInv (v : Word) (h : SenderInv s) : SenderInv (writeCtrl v s) := by
  obtain ⟨c, hc | hc⟩ := writeCtrl_cases v s
  · rw [hc]; exact { h with }
  · have habort : SenderInv (abortSend { s with ctrl := c }) := abortSend_senderInv { h with }
    rw [hc]; exact { habort with }

/-- The return from DONE to IDLE clears TX_DONE with it (R28). -/
theorem writeStatus_senderInv (v : Word) (h : SenderInv s) : SenderInv (writeStatus v s) := by
  by_cases hc : v.getLsbD 0 = true ∧ s.tx.arqState = .done
  · obtain ⟨hv, hdone⟩ := hc
    have hst : s.tx.arqState ≠ .sendingFragment := by simp [hdone]
    rw [writeStatus, if_pos ⟨hv, hdone⟩]
    exact {
      sendingHasOneFrame := nofun
      inflightSending := fun hf => absurd (h.inflightSending hf) hst
      pendingSending := fun _ => h.pendingSending hst
      abortInflight := h.abortInflight
      activeNotOwned := fun ha => absurd ha (not_active (.inl rfl))
      activeFragment := fun ha => absurd ha (not_active (.inl rfl))
      doneFlag := fun hd => by simp [-BitVec.getLsbD_eq_getElem, clearFlags, hv] at hd }
  · rw [writeStatus, if_neg hc]
    exact { h with doneFlag := fun hd => h.doneFlag (Bool.and_elim_left hd) }

theorem writeReg_senderInv {r : PortReg} {v : Word} (hx : writeReg r v s = .next t) (hr : r ≠ .cmd) (h : SenderInv s) :
    SenderInv t := by
  cases r with
  | cmd => exact absurd rfl hr
  | ctrl => cases hx; exact writeCtrl_senderInv v h
  | addr => cases hx; unfold writeAddr; split <;> exact { h with }
  | status => cases hx; exact writeStatus_senderInv v h
  | _ => cases hx; exact { h with }

theorem runCommand_senderInv {v : Word} (hx : runCommand v s = .next t) (h : SenderInv s) : SenderInv t := by
  unfold runCommand at hx
  split at hx
  · exact exec_senderInv hx h
  · cases hx; exact { h with }

theorem writeWindow_frame (b : Buf) (i : Nat) (v : Word) (s : State) : writeWindow b i v s = { s with
    mem := (writeWindow b i v s).mem, flags.accessErr := (writeWindow b i v s).flags.accessErr } := by
  cases b with
  | pbufTx => unfold writeWindow; dsimp only; split <;> rfl
  | _ => rfl

theorem hostWrite_senderInv {off : BitVec 10} {size : Nat} {v : Word} (hx : hostWrite off size v s = .next t)
    (h : SenderInv s) : SenderInv t := by
  unfold hostWrite at hx
  split at hx
  · split at hx
    · rename_i r _
      by_cases hcmd : r = .cmd
      · subst hcmd; exact runCommand_senderInv hx h
      · exact writeReg_senderInv hx hcmd h
    · cases hx; rw [writeWindow_frame]; exact { h with }
    · cases hx; exact h
  · cases hx; exact { h with }

theorem hostRead_frame (off : BitVec 10) (size : Nat) (s : State) : hostRead off size s = { s with
    env.hostData := (hostRead off size s).env.hostData, flags.accessErr := (hostRead off size s).flags.accessErr } := by
  unfold hostRead
  split <;> rfl

/-! ## Steps -/

theorem resetOf_senderInv (p : Params) (agenda : List Event) (n : Nat) : SenderInv (State.resetOf p agenda n) where
  sendingHasOneFrame := nofun
  inflightSending := nofun
  pendingSending _ := rfl
  abortInflight := nofun
  activeNotOwned _ := rfl
  activeFragment h := absurd h (not_active (.inl rfl))
  doneFlag := nofun

theorem runEvent_senderInv {e : Event} (hx : runEvent e s = .next t) (h : SenderInv s) : SenderInv t := by
  cases e with
  | hostWrite off size v => exact hostWrite_senderInv hx h
  | hostRead off size => cases hx; rw [hostRead_frame]; exact { h with }
  | rxOffer f => cases hx; exact { h with }
  | rxTake => cases hx; exact rxTake_senderInv h
  | txIssue => cases hx; exact txIssue_senderInv h
  | txDone ok => cases hx; exact txDone_senderInv ok h
  | msTick => cases hx; exact msTick_senderInv h
  | hardReset => cases hx; exact resetOf_senderInv ..

end

/-- Settles O4: a step is one event, and every event keeps the sender invariants. -/
theorem stepKeepsTheSenderInvariants : Obligations.StepKeepsTheSenderInvariants := by
  intro s t h hstep
  obtain ⟨-, e, ag, n, hrun⟩ := step_next hstep
  exact runEvent_senderInv hrun { h with }

end Sys2Proof.Machine
end

section
/-! The record invariants of BlockInv: lengths, masks and liveness of the record files, from the single write up to delivery. -/

namespace Sys2Proof.Machine

/-! ## Masks of N_NODES bits -/

theorem maskSet_lt {m : Word} {k n : Nat} (hm : m.toNat < 2 ^ n) (hk : k < n) : (maskSet m k).toNat < 2 ^ n := by
  refine or_lt_two_pow hm ?_
  rw [BitVec.toNat_shiftLeft]
  refine Nat.lt_of_le_of_lt (Nat.mod_le _ _) ?_
  simpa [Nat.shiftLeft_eq] using Nat.pow_lt_pow_right (by decide : 1 < 2) hk

theorem maskClear_lt {m : Word} {n : Nat} (hm : m.toNat < 2 ^ n) (k : Nat) : (maskClear m k).toNat < 2 ^ n := by
  rw [maskClear, BitVec.toNat_and]
  exact Nat.lt_of_le_of_lt Nat.and_le_left hm

theorem listMask_lt {s : State} (hw : s.params.wf = true) (list : List Byte) : (listMask s list).toNat < 2 ^ s.params.nNodes := by
  refine Nat.lt_pow_two_of_testBit _ fun i hi => ?_
  rw [← Bool.not_eq_true]
  intro hbit
  exact absurd ((listMask_bit s hw list i).1 hbit).1 (Nat.not_lt.2 hi)

/-! ## One record -/

/-- The record invariants, with parameters inside the spec. -/
structure RecordsOk (s : State) : Prop extends RecordInv s where
  wf : s.params.wf = true

section
variable {s t : State}

/-- A record read is in the file, or zero. -/
theorem lsGet_mem_or_zero (s : State) (a : Byte) : lsGet s a ∈ s.ls ∨ lsGet s a = zeroLs := by
  rcases Nat.lt_or_ge a.toNat s.ls.length with h | h
  · left
    rw [lsGet, List.getD_eq_getElem _ _ h]
    exact List.getElem_mem h
  · exact .inr (List.getD_eq_default _ _ h)

theorem RecordsOk.lsGet_mask (h : RecordsOk s) (a : Byte) : (lsGet s a).mask.toNat < 2 ^ s.params.nNodes := by
  rcases lsGet_mem_or_zero s a with hm | hz
  · exact h.lsMask _ hm
  · rw [hz]; exact Nat.two_pow_pos _

theorem RecordsOk.lsGet_known (h : RecordsOk s) (a : Byte) (hl : (lsGet s a).ttl ≠ 0) : (lsGet s a).known = true := by
  rcases lsGet_mem_or_zero s a with hm | hz
  · exact h.lsKnown _ hm hl
  · rw [hz] at hl; exact absurd rfl hl

theorem RecordsOk.lsSet (h : RecordsOk s) (a : Byte) {r : LsRecord} (hm : r.mask.toNat < 2 ^ s.params.nNodes)
    (hk : r.ttl ≠ 0 → r.known = true) : RecordsOk (lsSet s a r) :=
  { h with
    lsLength := List.length_set.trans h.lsLength
    lsMask := fun r' hr' => (List.mem_or_eq_of_mem_set hr').elim (h.lsMask r') fun he => he ▸ hm
    lsKnown := fun r' hr' => (List.mem_or_eq_of_mem_set hr').elim (h.lsKnown r') fun he => he ▸ hk }

theorem RecordsOk.nbSet (h : RecordsOk s) (a : Byte) (r : NbRecord) : RecordsOk (nbSet s a r) :=
  { h with nbLength := List.length_set.trans h.nbLength }

theorem RecordsOk.setOwnMask (h : RecordsOk s) {m : Word} (hm : m.toNat < 2 ^ s.params.nNodes) : RecordsOk (setOwnMask m s) :=
  h.lsSet _ hm (h.lsGet_known (own s))

theorem RecordsOk.raiseTopo (h : RecordsOk s) (topo : Bool) : RecordsOk (raiseTopo topo s) := { h with }

/-! ## The parser and delivery -/

theorem RecordsOk.acceptLinkState (h : RecordsOk s) (src sq : Byte) (list : List Byte) (action : RecAction) :
    RecordsOk (acceptLinkState src sq list action s).2 :=
  (h.lsSet src (listMask_lt h.wf list) fun _ => rfl).raiseTopo _

theorem RecordsOk.notifyLinkState (h : RecordsOk s) (src sq : Byte) (list : List Byte) :
    RecordsOk (notifyLinkState src sq list s).2 := by
  unfold Machine.notifyLinkState
  split_ifs
  · exact h
  · exact h
  · exact h.acceptLinkState ..
  · exact h.acceptLinkState ..
  · exact h

theorem RecordsOk.notifyPingResponse (h : RecordsOk s) (phys l : Byte) : RecordsOk (notifyPingResponse phys l s).2 := by
  unfold Machine.notifyPingResponse
  split
  · exact h
  · rename_i hl
    have hl : l.toNat < s.params.nNodes := (inRange_iff h.wf l).1 (by simpa using hl)
    have hnb := h.nbSet l { phys := phys, ttl := s.ttlCfg.nbTtl }
    exact (hnb.setOwnMask (maskSet_lt (hnb.lsGet_mask _) hl)).raiseTopo _

theorem RecordsOk.dispatchPacket (h : RecordsOk s) (p : List Byte) (ph : Byte) : RecordsOk (dispatchPacket p ph s).2 := by
  unfold Machine.dispatchPacket
  split
  · exact h.notifyLinkState ..
  · exact h.notifyPingResponse ..
  · exact h

theorem RecordsOk.parsePacket (h : RecordsOk s) (p : List Byte) (ph : Byte) : RecordsOk (parsePacket p ph s).2 := by
  have hrec : RecordsOk (parseRecords p ph s).2 := by
    unfold parseRecords
    split
    · exact h.dispatchPacket p ph
    · exact h
  unfold Machine.parsePacket
  generalize parseRecords p ph s = q at hrec ⊢
  exact { hrec with }

theorem RecordsOk.deliverPacket (h : RecordsOk s) (len : Nat) (src : Byte) (bc : Bool) :
    RecordsOk (deliverPacket len src bc s) := by
  have hparse := h.parsePacket (bufBytes s.mem .pbufRx 0 len) src
  unfold Machine.deliverPacket
  generalize Machine.parsePacket (bufBytes s.mem .pbufRx 0 len) src s = q at hparse ⊢
  dsimp only
  split_ifs <;> exact { hparse with }

/-! ## AGE and SET_OWN_SEQ -/

theorem RecordsOk.ageLs (e : Half) (acc : State × Nat) (a : Nat) (h : RecordsOk acc.1) : RecordsOk (ageLs e acc a).1 := by
  unfold Machine.ageLs
  dsimp only
  split_ifs with hlive hexp
  · exact (h.lsSet _ (Nat.two_pow_pos _) fun hz => absurd rfl hz).raiseTopo true
  · exact h.lsSet _ (h.lsGet_mask _) fun _ => h.lsGet_known _ hlive.2
  · exact h

theorem RecordsOk.ageNb (e : Half) (acc : State × Nat) (a : Nat) (h : RecordsOk acc.1) : RecordsOk (ageNb e acc a).1 := by
  unfold Machine.ageNb
  dsimp only
  split_ifs with hlive hexp
  · have hnb := h.nbSet (BitVec.ofNat 8 a) { phys := 0, ttl := 0 }
    exact (hnb.setOwnMask (maskClear_lt (hnb.lsGet_mask _) a)).raiseTopo true
  · exact h.nbSet ..
  · exact h

theorem RecordsOk.ageLsAll (e : Half) (h : RecordsOk s) : RecordsOk (ageLsAll e s).1 :=
  foldl_keeps (R := fun s t => RecordsOk s → RecordsOk t) (fun _ => id) (fun h h' => h' ∘ h) (RecordsOk.ageLs e) _ s 0 h

theorem RecordsOk.ageNbAll (e : Half) (h : RecordsOk s) : RecordsOk (ageNbAll e s).1 :=
  foldl_keeps (R := fun s t => RecordsOk s → RecordsOk t) (fun _ => id) (fun h h' => h' ∘ h) (RecordsOk.ageNb e) _ s 0 h

theorem RecordsOk.finishResult {i : Instr} {v : Word} (h : RecordsOk s) (ht : finishResult i v s = .next t) : RecordsOk t := by
  rw [(finishResult_next ..).1 ht]; exact { h with }

theorem exec_record_recordsOk {i : Instr} (hx : exec i s = .next t)
    (hi : i ∈ [.parsePacket, .notifyPingResponse, .age, .setOwnSeq]) (h : RecordsOk s) : RecordsOk t := by
  simp only [List.mem_cons, List.not_mem_nil, or_false] at hi
  rcases hi with rfl | rfl | rfl | rfl
  · rcases execParsePacket_next hx with ⟨_, hx⟩ | ⟨_, hx⟩
    · rw [(raiseCmdError_next ..).1 hx]; exact { h with }
    · exact (h.parsePacket _ _).finishResult hx
  · rw [exec, execNotifyPingResponse_eq] at hx
    exact (h.notifyPingResponse _ _).finishResult hx
  · rw [exec, execAge_eq] at hx
    exact ((h.ageLsAll _).ageNbAll _).finishResult hx
  · rw [exec, execSetOwnSeq, finishOk_next] at hx
    have hset := h.lsSet (own s) (r := { lsGet s (own s) with seq := arg0Low s }) (h.lsGet_mask _) (h.lsGet_known _)
    rw [hx]; exact { hset with }

end

end Sys2Proof.Machine
end

section
/-! BlockInv: what of it is not the sender invariants, operation by operation, and the invariant of the machine. -/

namespace Sys2Proof.Machine

/-- The invariant of the machine without the sender invariants, which `SenderInv` has its own lemmas for: the ranges, the
records, memory, the agents, and how far a send is. -/
structure RestInv (s : State) : Prop extends RangeInv s, RecordsOk s, MemInv s, AgentInv s where
  progress : Active s → s.tx.fragsDone = s.tx.fragIdx ∧ s.tx.nfrag = fragCount s.tx.sendLen

section
variable {s t : State}

theorem blockInv_iff (s : State) : BlockInv s ↔ SenderInv s ∧ RestInv s := by
  constructor
  · intro h
    exact ⟨h.sender, { h.range, h.record, h.mem, h.agent with
      wf := h.params, progress := fun ha => ⟨h.progress.fragsDone ha, h.progress.fragCount ha⟩ }⟩
  · rintro ⟨hs, h⟩
    exact ⟨h.wf, hs, ⟨fun ha => (h.progress ha).1, fun ha => (h.progress ha).2⟩, h.toRangeInv, h.toRecordInv, h.toMemInv,
      h.toAgentInv⟩

theorem RestInv.setCmdStatus (h : RestInv s) (c : CmdStatus) : RestInv { s with cmdStatus := c } := { h with }

/-! ## The three moves of a send -/

/-- A send that ends has done at most the 6 fragments of the longest packet. -/
theorem endSend_restInv (code : TxCode) {n : Nat} (hn : n ≤ 6) (h : RestInv s) :
    RestInv (endSend code { s with tx.fragsDone := n }) :=
  { h with
    fragsDone := hn
    resultFragsDone := hn
    resultNfrag := h.nfrag
    progress := fun ha => absurd ha (not_active (.inr rfl)) }

theorem launchFragment_restInv (h : RestInv s)
    (hp : s.tx.fragsDone = s.tx.fragIdx ∧ s.tx.nfrag = fragCount s.tx.sendLen) : RestInv (launchFragment s) := by
  have hcanonical : memWf (launchFragment s).mem = true := memWf_bufWrite h.canonical _ _ _
  have hmapped : memMapped (launchFragment s).mem = true := memMapped_bufWrite h.mapped _ _ _
  rw [launchFragment_eq]
  exact { h with
    fbufTxLen := Nat.le_trans (dataFrame_length_le s) (by decide)
    canonical := hcanonical
    mapped := hmapped
    progress := fun _ => hp }

theorem awaitAck_restInv (h : RestInv s) (ha : Active s) : RestInv (awaitAck s) := { h with progress := fun _ => h.progress ha }

/-- A matching ACK before the last fragment: the next index is still that of a fragment, and one more is done. -/
theorem nextFragment_restInv (hs : SenderInv s) (h : RestInv s) (ha : Active s) (hmore : s.tx.fragIdx + 1 ≠ s.tx.nfrag) :
    RestInv (nextFragment (countFragment s)) := by
  obtain ⟨hlt, hle⟩ := hs.activeFragment ha
  obtain ⟨hdone, hcount⟩ := h.progress ha
  exact { h with
    fragIdx := by show s.tx.fragIdx + 1 ≤ 5; omega
    fragsDone := by show s.tx.fragsDone + 1 ≤ 6; omega
    progress := fun _ => ⟨congrArg (· + 1) hdone, hcount⟩ }

/-! ## The sender's steps -/

theorem arqCheckAck_restInv (hs : SenderInv s) (h : RestInv s) : RestInv (arqCheckAck s) := by
  have hlatch : RestInv { s with ack.latched := false } := { h with }
  rcases arqCheckAck_cases s with hc | ⟨hst, hc | hc | ⟨hmore, hc⟩⟩
  all_goals rw [hc]
  · exact h
  · exact hlatch
  · obtain ⟨hlt, hle⟩ := hs.activeFragment (active_of_awaitAck hst)
    have hdone := (h.progress (active_of_awaitAck hst)).1
    exact endSend_restInv (s := { s with ack.latched := false }) _ (by omega) hlatch
  · have hnext := nextFragment_restInv hs h (active_of_awaitAck hst) hmore
    exact launchFragment_restInv hnext (hnext.progress (active_of_awaitAck hst))

theorem txIssue_restInv (h : RestInv s) : RestInv (txIssue s) := by
  rcases txIssue_cases s with hc | ⟨-, hc | ⟨-, hc⟩⟩
  all_goals rw [hc]
  · exact h
  · exact { h with held := ⟨nofun, fun _ => rfl⟩ }
  · exact { h with held := ⟨nofun, fun _ => rfl⟩ }

theorem freePort_restInv (h : RestInv s) : RestInv (freePort s) := { h with held := ⟨nofun, fun hn => absurd rfl hn⟩ }

theorem dataCompletion_restInv (ok : Bool) (hb : BetweenFrames { s with port.abortPending := false }) (ha : Active s)
    (h : RestInv s) : RestInv (dataCompletion ok s) := by
  rcases dataCompletion_cases ok s with ⟨code, hc⟩ | hc | ⟨hab, hc⟩
  all_goals rw [hc]
  · exact endSend_restInv code h.fragsDone h
  · exact endSend_restInv _ (by decide) h
  · have hbs : BetweenFrames s := { hb with noAbort := hab }
    exact arqCheckAck_restInv hbs.awaitAck (awaitAck_restInv h ha)

theorem txDone_restInv (ok : Bool) (hs : SenderInv s) (h : RestInv s) : RestInv (txDone ok s) := by
  cases hf : s.port.txInflight with
  | none => rw [txDone_none ok hf]; exact h
  | ack => rw [txDone_control ok (.inl hf)]; exact freePort_restInv h
  | orphan => rw [txDone_control ok (.inr hf)]; exact freePort_restInv h
  | data =>
    rw [txDone_data ok hf]
    exact dataCompletion_restInv ok (hs.freePort_betweenFrames hf) (active_of_sending (hs.inflightSending hf))
      (freePort_restInv h)

theorem msTick_restInv (h : RestInv s) : RestInv (msTick s) := by
  have htick : RestInv { s with tx.timer := tickTimer s.tx.timer } := { h with }
  rcases msTick_cases s with hc | ⟨hst, hc | hc | hc⟩
  all_goals rw [hc]
  · exact h
  · exact htick
  · have hretry : RestInv (countRetry s) := { h with }
    exact launchFragment_restInv hretry (hretry.progress (active_of_awaitAck hst))
  · exact endSend_restInv _ htick.fragsDone htick

/-! ## Commands -/

theorem abortSend_restInv (h : RestInv s) : RestInv (abortSend s) := by
  cases hst : s.tx.arqState with
  | idle => rw [abortSend_idleish (.inl hst)]; exact h
  | done => rw [abortSend_idleish (.inr hst)]; exact h
  | awaitAck => rw [abortSend_awaitAck hst]; exact endSend_restInv _ h.fragsDone h
  | sendingFragment =>
    cases hd : s.port.dataPending with
    | true =>
      have hclear : RestInv { s with port.dataPending := false } := { h with }
      rw [abortSend_pending hst hd]
      exact endSend_restInv _ hclear.fragsDone hclear
    | false => rw [abortSend_inFlight hst hd]; exact { h with }

theorem startSend_restInv (h : RestInv s) (hc : arqSendCheck s = none) : RestInv (startSend s) := by
  obtain ⟨-, hidle, -, ⟨hle, -⟩, -⟩ := (arqSendCheck_none s).1 hc
  rw [← arg0High_toNat] at hle
  have hfrag : fragCount (arg0High s).toNat ≤ 6 := by simp only [fragCount, maxFrag]; omega
  exact { h with
    sendLen := hle
    nfrag := hfrag
    fragIdx := Nat.zero_le _
    fragsDone := Nat.zero_le _
    resultFragsDone := Nat.zero_le _
    resultNfrag := Nat.zero_le _
    progress := fun _ => ⟨rfl, rfl⟩ }

theorem resetOf_restInv {p : Params} (hw : p.wf = true) (agenda : List Event) (n : Nat) :
    RestInv (State.resetOf p agenda n) where
  allocLen := Nat.zero_le _
  sendLen := Nat.zero_le _
  nfrag := Nat.zero_le _
  fragIdx := Nat.zero_le _
  fragsDone := Nat.zero_le _
  fbufTxLen := Nat.zero_le _
  abufLen := Nat.zero_le _
  rxOffset := Nat.zero_le _
  fbufRxLen := Nat.zero_le _
  unstuffedLen := Nat.zero_le _
  resultFragsDone := Nat.zero_le _
  resultNfrag := Nat.zero_le _
  lsLength := List.length_replicate
  nbLength := List.length_replicate
  lsMask r hr := by rw [List.eq_of_mem_replicate hr]; exact Nat.two_pow_pos _
  maskReg := Nat.two_pow_pos _
  lsKnown r hr hl := by rw [List.eq_of_mem_replicate hr] at hl; exact absurd rfl hl
  ownInRange := (wf_nodes hw).1
  hwNotBcast := (by decide : (0 : Byte) ≠ bcastAddr)
  wf := hw
  canonical := rfl
  mapped := rfl
  offer := nofun
  held := ⟨nofun, fun h => absurd rfl h⟩
  progress ha := absurd ha (not_active (.inl rfl))

theorem orphaned_eq_none (i : TxInflight) : orphaned i = .none ↔ i = .none := by cases i <;> decide

theorem softReset_restInv (h : RestInv s) : RestInv (softReset s) :=
  { resetOf_restInv h.wf s.env.agenda s.env.eventNo with
    ownInRange := h.ownInRange
    hwNotBcast := h.hwNotBcast
    offer := h.offer
    held := h.held.trans (not_congr (orphaned_eq_none _)).symm }

theorem exec_rxRelease_restInv (hx : exec .rxRelease s = .next t) (h : RestInv s) : RestInv t := by
  simp only [exec, execRxRelease] at hx
  split at hx
  · rw [(finishOk_next ..).1 hx]; exact { h with }
  · rw [(finishOk_next ..).1 hx]; exact { h with rxOffset := Nat.zero_le _ }

theorem exec_readLsRecord_restInv (hx : exec .readLsRecord s = .next t) (h : RestInv s) : RestInv t := by
  simp only [exec, execReadLsRecord] at hx
  split at hx
  · rw [(raiseCmdError_next ..).1 hx]; exact { h with }
  · rw [(finishResult_next ..).1 hx]; exact { h with maskReg := h.lsGet_mask _ }

theorem exec_codec_restInv {i : Instr} (hx : exec i s = .next t) (hi : i ∈ [.stuff, .unstuff]) (h : RestInv s) : RestInv t := by
  rcases exec_codec_next hx hi with ht | ⟨w, ht⟩
  · rw [ht]; exact { h with }
  · rw [ht]
    exact { h with
      canonical := memWf_bufWrite h.canonical _ _ _
      mapped := memMapped_bufWrite h.mapped _ _ _ }

theorem ChangesRecordsOnly.restInv (hf : ChangesRecordsOnly s t) (hr : RecordsOk t) (h : RestInv s) : RestInv t := by
  rw [hf] at hr ⊢
  exact { hr, h with }

theorem exec_restInv {i : Instr} (hx : exec i s = .next t) (h : RestInv s) : RestInv t := by
  rcases instr_group i with hq | rfl | hr | hb | rfl | rfl | rfl | hc | rfl
  · rw [exec_query_frame hx hq]; exact { h with }
  · exact exec_readLsRecord_restInv hx h
  · exact (exec_record_frame hx hr).restInv (exec_record_recordsOk hx hr h.toRecordsOk) h
  · rcases exec_txBuffer_cases hx hb with ht | ⟨hidle, n, hn, ht⟩ | ht
    · rw [ht]; exact { h with }
    · rw [ht]; exact { h with allocLen := hn }
    · rw [ht]; exact { h with allocLen := Nat.zero_le _ }
  · exact exec_rxRelease_restInv hx h
  · rw [(finishOk_next .arqAbort (abortSend s) t).1 hx]; exact (abortSend_restInv h).setCmdStatus _
  · rcases exec_arqSend_cases hx with ht | ⟨hc, ht⟩
    · rw [ht]; exact { h with }
    · have hlaunch := launchFragment_restInv (startSend_restInv h hc) ⟨rfl, rfl⟩
      rw [ht]; exact hlaunch.setCmdStatus _
  · exact exec_codec_restInv hx hc h
  · rw [exec_softReset_eq hx]; exact (softReset_restInv h).setCmdStatus _

/-! ## The receive path -/

theorem rxSeen_restInv {f : List Byte} {m : Nat} (hf : f.length ≤ 64) (hm : m ≤ 62) (h : RestInv s) : RestInv (rxSeen f m s) :=
  { h with
    canonical := memWf_bufWrite h.canonical _ _ _
    mapped := memMapped_bufWrite h.mapped _ _ _
    fbufRxLen := hf
    unstuffedLen := hm
    offer := nofun }

theorem queueAck_restInv (d : Byte) (sq : Bool) (h : RestInv s) : RestInv (queueAck d sq s) := by
  rw [queueAck, writeBuf]
  exact { h with
    canonical := memWf_bufWrite h.canonical _ _ _
    mapped := memMapped_bufWrite h.mapped _ _ _
    abufLen := ackFrame_length_le s d sq }

theorem ackUnlessBcast_restInv (bc : Bool) (d : Byte) (sq : Bool) (h : RestInv s) : RestInv (ackUnlessBcast bc d sq s) := by
  cases bc with
  | true => exact h
  | false => exact queueAck_restInv d sq h

theorem deliverPacket_restInv (len : Nat) (src : Byte) (bc : Bool) (h : RestInv s) : RestInv (deliverPacket len src bc s) := by
  have hr := h.toRecordsOk.deliverPacket len src bc
  rw [deliverPacket_frame] at hr ⊢
  exact { hr, h with }

theorem setRx_restInv {rx : Receiver} {ev : RxEvent} (hoff : rx.offset ≤ 128) (hlen : rx.fbufRxLen ≤ 64)
    (hev : ev.unstuffedLen ≤ 62) (h : RestInv s) : RestInv { s with rx := rx, rxEvent := ev } :=
  { h with rxOffset := hoff, fbufRxLen := hlen, unstuffedLen := hev }

theorem rxAccept_restInv {x : List Byte} (hlen : s.rx.offset + frameLength x ≤ 128) (h : RestInv s) :
    RestInv (rxAccept x s) := by
  have hstore : RestInv { writeBuf s .pbufRx s.rx.offset (frameData x) with rx.offset := s.rx.offset + frameLength x } :=
    { h with
      canonical := memWf_bufWrite h.canonical _ _ _
      mapped := memMapped_bufWrite h.mapped _ _ _
      rxOffset := hlen }
  have happ : RestInv (rxAppend x s) := ackUnlessBcast_restInv _ _ _ hstore
  cases hfin : rxFinal x with
  | true =>
    rw [rxAccept_final hfin]
    exact deliverPacket_restInv _ _ _ (setRx_restInv (Nat.zero_le _) happ.fbufRxLen happ.unstuffedLen happ)
  | false =>
    rw [rxAccept_more hfin]
    exact setRx_restInv happ.rxOffset happ.fbufRxLen happ.unstuffedLen happ

theorem rxAck_restInv (x : List Byte) (hs : SenderInv s) (h : RestInv s) : RestInv (rxAck x s) := by
  have hs' : SenderInv { s with
    ack := { latched := true, seq := rxSeq x, src := frameSrc x }, rxEvent.event := .controlAck } := { hs with }
  exact arqCheckAck_restInv hs' { h with }

theorem RxEnd.restInv {x : List Byte} (he : RxEnd x s t) (hs : SenderInv s) (h : RestInv s) : RestInv t := by
  have hflag : RestInv (flagMismatch x s) := { h with }
  cases he with
  | dropped hev => exact { h with }
  | overflow => exact { h with rxOffset := Nat.zero_le _ }
  | ack => exact rxAck_restInv x hs h
  | rtc => exact { h with }
  | ctc => exact { h with }
  | duplicate ha =>
    have hack := ackUnlessBcast_restInv (rxBcast x) (frameSrc x) (rxSeq x) hflag
    exact setRx_restInv hack.rxOffset hack.fbufRxLen hack.unstuffedLen hack
  | accepted ha hlen => exact rxAccept_restInv hlen hflag

theorem rxTake_restInv (hs : SenderInv s) (h : RestInv s) : RestInv (rxTake s) := by
  rcases rxTake_cases s with hc | ⟨f, ho, hc | ⟨x, hx, he⟩⟩
  · rw [hc]; exact h
  · rw [hc]; exact { rxSeen_restInv ho.high (Nat.zero_le _) h with }
  · have hm : x.length ≤ 62 := by have := ho.high; omega
    have hs' : SenderInv (rxSeen f x.length s) := { hs with }
    exact he.restInv hs' (rxSeen_restInv ho.high hm h)

/-- What PHY-RX comes to offer is a legal frame (R190). -/
theorem offerFrame_restInv (f : List Byte) (h : RestInv s) : RestInv (offerFrame f s) := by
  refine { h with offer := fun f' hf' => ?_ }
  have hf' : (if f = [] then none else some (f.take rxMax)) = some f' := hf'
  split at hf'
  · cases hf'
  · rename_i hne
    have hpos := List.length_pos_iff.2 hne
    cases hf'
    simp only [frameOk, List.length_take, rxMax, Bool.and_eq_true, decide_eq_true_eq]
    omega

/-! ## Host accesses -/

theorem writeCtrl_restInv (v : Word) (h : RestInv s) : RestInv (writeCtrl v s) := by
  obtain ⟨c, hc | hc⟩ := writeCtrl_cases v s
  · rw [hc]; exact { h with }
  · have habort : RestInv (abortSend { s with ctrl := c }) := abortSend_restInv { h with }
    rw [hc]; exact { habort with }

theorem writeAddr_restInv (v : Word) (h : RestInv s) : RestInv (writeAddr v s) := by
  unfold writeAddr
  split
  · exact { h with }
  · refine { h with ownInRange := ?_, hwNotBcast := ?_ }
    · show (if inRange s (byteOf v 8) then byteOf v 8 else s.addr.myLogical).toNat < s.params.nNodes
      split
      · exact (inRange_iff h.wf _).1 ‹_›
      · exact h.ownInRange
    · show (if byteOf v 0 = bcastAddr then s.addr.myHw else byteOf v 0) ≠ bcastAddr
      split
      · exact h.hwNotBcast
      · assumption

theorem writeStatus_restInv (v : Word) (h : RestInv s) : RestInv (writeStatus v s) := by
  by_cases hc : v.getLsbD 0 = true ∧ s.tx.arqState = .done
  · rw [writeStatus, if_pos hc]; exact { h with progress := fun ha => absurd ha (not_active (.inl rfl)) }
  · rw [writeStatus, if_neg hc]; exact { h with }

theorem writeReg_restInv {r : PortReg} {v : Word} (hx : writeReg r v s = .next t) (hr : r ≠ .cmd) (h : RestInv s) :
    RestInv t := by
  cases r with
  | cmd => exact absurd rfl hr
  | ctrl => cases hx; exact writeCtrl_restInv v h
  | addr => cases hx; exact writeAddr_restInv v h
  | status => cases hx; exact writeStatus_restInv v h
  | _ => cases hx; exact { h with }

theorem runCommand_restInv {v : Word} (hx : runCommand v s = .next t) (h : RestInv s) : RestInv t := by
  unfold runCommand at hx
  split at hx
  · exact exec_restInv hx h
  · cases hx; exact { h with }

theorem writeWindow_restInv (b : Buf) (i : Nat) (v : Word) (h : RestInv s) : RestInv (writeWindow b i v s) := by
  by_cases hb : b = .pbufTx
  · subst hb
    cases hown : s.tx.txOwned with
    | true =>
      rw [writeWindow_owned hown]
      exact { h with
        canonical := memWf_bufWrite h.canonical _ _ _
        mapped := memMapped_bufWrite h.mapped _ _ _ }
    | false => rw [writeWindow_notOwned hown]; exact { h with }
  · rw [writeWindow_readOnly hb]; exact h

theorem hostWrite_restInv {off : BitVec 10} {size : Nat} {v : Word} (hx : hostWrite off size v s = .next t)
    (h : RestInv s) : RestInv t := by
  unfold hostWrite at hx
  split at hx
  · split at hx
    · rename_i r _
      by_cases hcmd : r = .cmd
      · subst hcmd; exact runCommand_restInv hx h
      · exact writeReg_restInv hx hcmd h
    · cases hx; exact writeWindow_restInv _ _ _ h
    · cases hx; exact h
  · cases hx; exact { h with }

/-! ## Steps -/

theorem runEvent_restInv {e : Event} (hx : runEvent e s = .next t) (hs : SenderInv s) (h : RestInv s) : RestInv t := by
  cases e with
  | hostWrite off size v => exact hostWrite_restInv hx h
  | hostRead off size => cases hx; rw [hostRead_frame]; exact { h with }
  | rxOffer f => cases hx; exact offerFrame_restInv f h
  | rxTake => cases hx; exact rxTake_restInv hs h
  | txIssue => cases hx; exact txIssue_restInv h
  | txDone ok => cases hx; exact txDone_restInv ok hs h
  | msTick => cases hx; exact msTick_restInv h
  | hardReset => cases hx; exact resetOf_restInv h.wf ..

end

/-- Settles O2: every element is zero, every record is zero, and the own address is 0. -/
theorem resetMeetsTheInvariant : Obligations.ResetMeetsTheInvariant :=
  fun p agenda n hw => (blockInv_iff _).2 ⟨resetOf_senderInv p agenda n, resetOf_restInv hw agenda n⟩

/-- Settles O3: a step is one event, and every event keeps the sender invariants and, with them, the rest. -/
theorem stepKeepsTheInvariant : Obligations.StepKeepsTheInvariant := by
  intro s t h hstep
  obtain ⟨hs, hrest⟩ := (blockInv_iff s).1 h
  obtain ⟨-, e, ag, n, hrun⟩ := step_next hstep
  have hs' : SenderInv { s with env := { s.env with agenda := ag, eventNo := n } } := { hs with }
  exact (blockInv_iff t).2 ⟨runEvent_senderInv hrun hs', runEvent_restInv hrun hs' { hrest with }⟩

end Sys2Proof.Machine
end

section
/-! The packet parser (43_linkstate.md R210-R226): the fields Validate reads, its checks one by one, the dispatch by
type, and the two ways a packet comes to be parsed. -/

namespace Sys2Proof.Machine

section
variable {p : List Byte}

/-! ## Packet fields as numbers -/

theorem pktType_toNat (p : List Byte) : (pktType p).toNat = (p.getD 1 0).toNat % 16 := by
  simp [pktType, pktByte, BitVec.extractLsb'_toNat]

theorem pktCk_toNat (p : List Byte) :
    (pktCk p).toNat = (p.getD (p.length - 2) 0).toNat * 256 + (p.getD (p.length - 1) 0).toNat := ckOf_toNat _ _

/-- CKMODE, by its number (R111). -/
theorem pktMode_by_number (p : List Byte) :
    ((p.getD 1 0).toNat / 16 % 4 = 0 → pktMode p = some .none) ∧
      ((p.getD 1 0).toNat / 16 % 4 = 1 → pktMode p = some .evenParity) ∧
      (1 < (p.getD 1 0).toNat / 16 % 4 → pktMode p = none) := by
  have hv : ((pktByte p 1).extractLsb' 4 2).toNat = (p.getD 1 0).toNat / 16 % 4 := by
    simp [pktByte, BitVec.extractLsb'_toNat, Nat.shiftRight_eq_div_pow]
  have hlt : (p.getD 1 0).toNat / 16 % 4 < 4 := Nat.mod_lt _ (by omega)
  unfold pktMode
  rw [hv]
  interval_cases (p.getD 1 0).toNat / 16 % 4 <;> simp

/-- TYPE, by its number (R112). -/
theorem pktType_by_number (p : List Byte) :
    ((p.getD 1 0).toNat % 16 = 1 → typeOfCode (pktType p) = some .data) ∧
      ((p.getD 1 0).toNat % 16 = 2 → typeOfCode (pktType p) = some .linkState) ∧
      ((p.getD 1 0).toNat % 16 = 3 → typeOfCode (pktType p) = some .pingRequest) ∧
      ((p.getD 1 0).toNat % 16 = 4 → typeOfCode (pktType p) = some .pingResponse) ∧
      ((p.getD 1 0).toNat % 16 = 0 ∨ 4 < (p.getD 1 0).toNat % 16 → typeOfCode (pktType p) = none) := by
  rw [← pktType_toNat]
  generalize pktType p = t
  revert t; decide

/-! ## Validate, check by check (R211) -/

/-- The checksum check passes: mode NONE, or the two trailing bytes are the parity of the rest. -/
def SumGood (p : List Byte) : Prop :=
  (p.getD 1 0).toNat / 16 % 4 = 0 ∨
    (p.getD (p.length - 2) 0).toNat * 256 + (p.getD (p.length - 1) 0).toNat = parityFold (p.take (p.length - 2))

/-- The length check passes for the type `t` (R118). -/
def LengthGood (p : List Byte) (t : PktType) : Prop := minLen t ≤ p.length ∧ p.length = expectedLen p t

/-- A legal mode is a mode, and its checksum check is `SumGood`. -/
theorem pktMode_legal (h : (p.getD 1 0).toNat / 16 % 4 ≤ 1) :
    ∃ mode, pktMode p = some mode ∧ (verify mode (pktCk p) (p.take (p.length - 2)) = true ↔ SumGood p) := by
  obtain ⟨hnone, heven, -⟩ := pktMode_by_number p
  rcases Nat.le_one_iff_eq_zero_or_eq_one.1 h with h | h
  · exact ⟨_, hnone h, fun _ => .inl h, fun _ => rfl⟩
  · exact ⟨_, heven h, by rw [verify_evenParity_iff, pktCk_toNat, SumGood]; omega⟩

/-- A legal type is a type, and its length check is the one of R118 for its number. -/
theorem pktType_legal (h1 : 1 ≤ (p.getD 1 0).toNat % 16) (h4 : (p.getD 1 0).toNat % 16 ≤ 4) :
    ∃ t, typeOfCode (pktType p) = some t ∧ (LengthGood p t ↔
      ((p.getD 1 0).toNat % 16 = 1 ∧ 5 ≤ p.length ∧ p.length = 7 + (p.getD 4 0).toNat) ∨
      ((p.getD 1 0).toNat % 16 = 2 ∧ 5 ≤ p.length ∧ p.length = 7 + (p.getD 4 0).toNat) ∨
      ((p.getD 1 0).toNat % 16 = 3 ∧ p.length = 4) ∨ ((p.getD 1 0).toNat % 16 = 4 ∧ p.length = 5)) := by
  obtain ⟨hdata, hlink, hreq, hresp, -⟩ := pktType_by_number p
  obtain h | h | h | h : (p.getD 1 0).toNat % 16 = 1 ∨ (p.getD 1 0).toNat % 16 = 2 ∨ (p.getD 1 0).toNat % 16 = 3 ∨
      (p.getD 1 0).toNat % 16 = 4 := by omega
  · exact ⟨_, hdata h, by simp only [LengthGood, minLen, expectedLen, pktByte]; omega⟩
  · exact ⟨_, hlink h, by simp only [LengthGood, minLen, expectedLen, pktByte]; omega⟩
  · exact ⟨_, hreq h, by simp only [LengthGood, minLen, expectedLen]; omega⟩
  · exact ⟨_, hresp h, by simp only [LengthGood, minLen, expectedLen]; omega⟩

theorem validate_tooShort (h : p.length < 4) : validate p = .tooShort := if_pos h

section
variable (hn : 4 ≤ p.length)
include hn

theorem validate_badMode (h : 1 < (p.getD 1 0).toNat / 16 % 4) : validate p = .badMode := by
  obtain ⟨-, -, hbad⟩ := pktMode_by_number p
  rw [validate, if_neg (by omega), hbad h]

variable (hm : (p.getD 1 0).toNat / 16 % 4 ≤ 1)
include hm

theorem validate_checksumFail (h : ¬ SumGood p) : validate p = .checksumFail := by
  obtain ⟨mode, hmode, hsum⟩ := pktMode_legal hm
  rw [validate, if_neg (by omega), hmode]
  exact if_pos (by rwa [← hsum, Bool.not_eq_true] at h)

variable (hs : SumGood p)
include hs

theorem validate_badType (h : (p.getD 1 0).toNat % 16 = 0 ∨ 4 < (p.getD 1 0).toNat % 16) : validate p = .badType := by
  obtain ⟨-, -, -, -, hnone⟩ := pktType_by_number p
  obtain ⟨mode, hmode, hsum⟩ := pktMode_legal hm
  rw [validate, if_neg (by omega), hmode]
  dsimp only
  rw [hsum.2 hs, if_neg (by decide), hnone h]

theorem validate_typed {t : PktType} (h : typeOfCode (pktType p) = some t) :
    (LengthGood p t → validate p = .valid) ∧ (¬ LengthGood p t → validate p = .lengthMismatch) := by
  obtain ⟨mode, hmode, hsum⟩ := pktMode_legal hm
  rw [validate, if_neg (by omega), hmode]
  dsimp only
  rw [hsum.2 hs, if_neg (by decide), h, LengthGood]
  dsimp only
  refine ⟨fun ⟨hmin, hlen⟩ => by rw [if_neg (Nat.not_lt.2 hmin), if_neg (not_not.2 hlen)], fun hbad => ?_⟩
  by_cases hmin : p.length < minLen t
  · exact if_pos hmin
  · rw [if_neg hmin, if_pos fun hlen => hbad ⟨Nat.not_lt.1 hmin, hlen⟩]

end

end

/-- Settles O26: each check in turn, by its own lemma. -/
theorem validationOrder : Obligations.ValidationOrder := by
  intro p n mode t ck sumOk lenOk
  refine ⟨validate_tooShort, validate_badMode, validate_checksumFail, validate_badType,
    fun hn hm hs h1 h4 hlen => ?_, fun hn hm hs hlen => ?_⟩
  · obtain ⟨ty, hty, hgood⟩ := pktType_legal h1 h4
    exact (validate_typed hn hm hs hty).2 (mt hgood.1 hlen)
  · obtain ⟨ty, hty, hgood⟩ := pktType_legal (p := p) (show 1 ≤ t by omega) (show t ≤ 4 by omega)
    exact (validate_typed hn hm hs hty).1 (hgood.2 hlen)

/-! ## Dispatch (R212) -/

/-- The state with the parser's report written to PKT_STATUS (R210): not delivered. -/
def reportPacket (p : List Byte) (o : ParseOut) (s : State) : State := { s with pktStatus :=
  { vcode := o.vcode, pktType := BitVec.ofNat 4 (if 2 ≤ p.length then (p.getD 1 0).toNat % 16 else 0), action := o.action
    topoSet := o.topo, delivered := false } }

/-- The parser is the validation with the record updates, and then the report. -/
theorem parsePacket_eq (p : List Byte) (ph : Byte) (s : State) : parsePacket p ph s =
    ((parseRecords p ph s).1, reportPacket p (parseRecords p ph s).1 (parseRecords p ph s).2) := by
  have ht : (if 2 ≤ p.length then pktType p else 0) =
      BitVec.ofNat 4 (if 2 ≤ p.length then (p.getD 1 0).toNat % 16 else 0) := by
    split_ifs
    · rw [← pktType_toNat, BitVec.ofNat_toNat, BitVec.setWidth_eq]
    · rfl
  rw [reportPacket, ← ht]; rfl

section
variable {p : List Byte}

theorem parseRecords_invalid (h : validate p ≠ .valid) (ph : Byte) (s : State) : parseRecords p ph s =
    ({ vcode := validate p, action := .none, topo := false, deliverable := false, lsAcc := false }, s) := if_neg h

section
variable (h : validate p = .valid)
include h

theorem parseRecords_plain (ht : typeOfCode (pktType p) = some .data ∨ typeOfCode (pktType p) = some .pingRequest)
    (ph : Byte) (s : State) : parseRecords p ph s =
      ({ vcode := .valid, action := .none, topo := false, deliverable := true, lsAcc := false }, s) := by
  rw [parseRecords, if_pos h, dispatchPacket]
  rcases ht with ht | ht <;> rw [ht]

theorem parseRecords_linkState (ht : typeOfCode (pktType p) = some .linkState) (ph : Byte) (s : State) :
    let o := notifyLinkState (p.getD 2 0) (p.getD 3 0) ((p.drop 5).take (p.getD 4 0).toNat) s
    parseRecords p ph s =
      ({ vcode := .valid, action := o.1.action, topo := o.1.topo, deliverable := o.1.acc, lsAcc := o.1.acc }, o.2) := by
  rw [parseRecords, if_pos h, dispatchPacket, ht]; rfl

theorem parseRecords_pingResponse (ht : typeOfCode (pktType p) = some .pingResponse) (ph : Byte) (s : State) :
    let o := notifyPingResponse ph (p.getD 2 0) s
    parseRecords p ph s =
      ({ vcode := .valid, action := o.1.action, topo := o.1.topo, deliverable := false, lsAcc := false }, o.2) := by
  rw [parseRecords, if_pos h, dispatchPacket, ht]; rfl

end

end

/-- Settles O27: the parser's report and state, by the validation and the type. -/
theorem parserDispatchesByType : Obligations.ParserDispatchesByType := by
  intro p ph s r t report
  obtain ⟨hdata, hlink, hreq, hresp, -⟩ := pktType_by_number p
  have hr : r = _ := parsePacket_eq p ph s
  refine ⟨fun h => ?_, fun h ht => ?_, fun h ht => ?_, fun h ht => ?_⟩
  · rw [hr, parseRecords_invalid h]; exact ⟨rfl, rfl⟩
  · rw [hr, parseRecords_plain h (ht.imp hdata hreq)]; exact ⟨rfl, rfl⟩
  · rw [hr, parseRecords_linkState h (hlink ht)]; exact ⟨rfl, rfl⟩
  · rw [hr, parseRecords_pingResponse h (hresp ht)]; exact ⟨rfl, rfl⟩

/-! ## PARSE_PACKET and delivery -/

theorem parsePacket_mem (p : List Byte) (ph : Byte) (s : State) : (parsePacket p ph s).2.mem = s.mem := by
  rw [parsePacket_frame]

/-- RESULT of PARSE_PACKET as the sum of its three bits (R226). -/
theorem parseResult_eq (v a d : Bool) : bitAt 0 v ||| bitAt 1 a ||| bitAt 2 d =
    BitVec.ofNat 32 ((if v then 1 else 0) + (if a then 2 else 0) + (if d then 4 else 0)) := by
  revert v a d; decide

/-- Settles O25: the two errors, and the parser's state with its RESULT. -/
theorem parsePacketCommand : Obligations.ParsePacketCommand := by
  intro s n out u
  have hn : (arg0Low s).toNat = n := arg0Low_toNat s
  refine ⟨fun hown => ?_, fun hown hbig => ?_, fun hown hle => ⟨?_, rfl, ?_⟩⟩
  · exact if_pos hown
  · simp only [exec, execParsePacket, hown, hn]
    exact if_pos hbig
  · simp only [exec, execParsePacket, hown, hn, arg0High_eq, Nat.not_lt.2 hle, parseResult_eq, if_false,
      Bool.true_eq_false, Bool.and_eq_true, decide_eq_true_eq]
    rfl
  · have hframe : u = _ := parsePacket_frame ..
    rw [hframe]; exact ⟨rfl, rfl, rfl, rfl⟩

/-- Settles O55: the three outcomes, and the frame of delivery. -/
theorem deliveryOfPackets : Obligations.DeliveryOfPackets := by
  intro len src bc s r t
  have hmem : r.2.mem = s.mem := parsePacket_mem _ src s
  refine ⟨fun hv hd => ?_, fun hv hd => ?_, fun hv => ?_, ?_⟩
  · rw [BitVec.setWidth_eq_extractLsb' (by decide), ← hmem]
    exact if_pos ⟨hv, hd⟩
  · refine (if_neg fun h => ?_).trans (if_neg (not_not.2 hv))
    exact absurd (h.2.symm.trans hd) (by decide)
  · exact (if_neg fun h => hv h.1).trans (if_pos hv)
  · have ht : t = _ := deliverPacket_frame len src bc s
    rw [ht]; exact ⟨rfl, rfl, rfl, rfl⟩

end Sys2Proof.Machine
end

section
/-! The record updates and queries (43_linkstate.md R230-R239): the sequence window, a link-state packet, a ping response,
and the commands that set or read one record. -/

namespace Sys2Proof.Machine

/-! ## The sequence window (R240) -/

/-- A forward difference, modulo 256, that counts as newer. -/
abbrev NewerBy (d : Nat) : Prop := 1 ≤ d % 256 ∧ d % 256 ≤ 128

theorem seqNewer_iff (old new : Byte) : seqNewer old new = true ↔ NewerBy (new.toNat + 256 - old.toNat) := by
  have := old.isLt
  have hsub : (new - old).toNat = (new.toNat + 256 - old.toNat) % 256 := by rw [BitVec.toNat_sub]; congr 1; omega
  rw [seqNewer, Bool.and_eq_true, decide_eq_true_iff, decide_eq_true_iff, hsub]

/-- A property of period `n` holds as often in any `n` numbers in a row as in the first `n`. -/
theorem count_shift_of_periodic {p : Nat → Prop} [DecidablePred p] {n : Nat} (hp : ∀ k, p (n + k) ↔ p k) (c : Nat) :
    Nat.count (fun k => p (c + k)) n = Nat.count p n := by
  have h1 := Nat.count_add p c n
  have h2 : Nat.count p (c + n) = Nat.count p n + Nat.count p c := by
    rw [Nat.add_comm, Nat.count_add]; simp only [hp]
  omega

/-- Settles O29: the window is periodic, so every stored number has as many newer ones as 0 has. -/
theorem sequenceWindow : Obligations.SequenceWindow := by
  intro old
  have hlt := old.isLt
  refine ⟨?_, fun k h1 h128 => ?_, fun k hk => ?_⟩
  · have hset : (Finset.range 256).filter NewerBy = Finset.Icc 1 128 := by
      ext d; simp only [Finset.mem_filter, Finset.mem_range, Finset.mem_Icc, NewerBy]; omega
    have hcount : Nat.count NewerBy 256 = 128 := by rw [Nat.count_eq_card_filter_range, hset, Nat.card_Icc]
    have hperiod (k : Nat) : NewerBy (256 + k) ↔ NewerBy k := by rw [NewerBy, NewerBy, Nat.add_mod_left]
    rw [← List.countP_eq_length_filter, ← hcount, ← count_shift_of_periodic hperiod (256 - old.toNat)]
    refine List.countP_congr fun q hq => ?_
    rw [List.mem_range] at hq
    rw [seqNewer_iff, decide_eq_true_iff, BitVec.toNat_ofNat, Nat.mod_eq_of_lt hq,
      show q + 256 - old.toNat = 256 - old.toNat + q by omega]
  · rw [seqNewer_iff, BitVec.toNat_add, BitVec.toNat_ofNat]; omega
  · rw [← Bool.not_eq_true, seqNewer_iff, BitVec.toNat_sub, BitVec.toNat_ofNat]; omega

/-! ## A link-state packet (R230, R231) -/

/-- Accepting a packet writes the record of its source only. -/
theorem lsGet_acceptLinkState {s : State} {src : Byte} (h : src.toNat < s.ls.length) (sq : Byte) (list : List Byte)
    (action : RecAction) (a : Byte) : lsGet (acceptLinkState src sq list action s).2 a =
      if a = src then { known := true, seq := sq, ttl := s.ttlCfg.lsTtl, mask := listMask s list } else lsGet s a :=
  lsGet_lsSet s src a _ h

/-- The decision of R230, in the numbers it is stated in. -/
theorem notifyLinkState_eq {s : State} (hw : s.params.wf = true) (src sq : Byte) (list : List Byte) :
    notifyLinkState src sq list s =
    if s.params.nNodes ≤ src.toNat then ({ acc := false, action := .lsRejectRange, topo := false }, s)
    else if src = s.addr.myLogical then ({ acc := false, action := .lsRejectSelf, topo := false }, s)
    else if (lsGet s src).known = false then acceptLinkState src sq list .lsAcceptedFirst s
    else if NewerBy (sq.toNat + 256 - (lsGet s src).seq.toNat) then acceptLinkState src sq list .lsAcceptedNewer s
    else ({ acc := false, action := .lsRejectStale, topo := false }, s) := by
  simp only [notifyLinkState, inRange_false_iff hw, seqNewer_iff, own]

/-- Settles O28: the decision by `notifyLinkState_eq`, and what accepting leaves. -/
theorem linkStateAcceptance : Obligations.LinkStateAcceptance := by
  intro src sq list s hw hlen o diff reject accept
  have ho : o = _ := notifyLinkState_eq hw src sq list
  have haccept (hsrc : src.toNat < s.params.nNodes) (a : RecAction) (hoa : o = acceptLinkState src sq list a s) :
      accept a := by
    have hget := lsGet_acceptLinkState (hlen ▸ hsrc) sq list a
    simp only [accept, hoa, hget, if_true]
    exact ⟨rfl, rfl, trivial, trivial, trivial, listMask_bit s hw list, decide_eq_true_iff, fun b hb => if_neg hb, rfl⟩
  refine ⟨fun hge => ?_, fun hlt hown => ?_, fun hlt hown hk => haccept hlt _ ?_, fun hlt hown hk h1 h128 => haccept hlt _ ?_,
    fun hlt hown hk hd => ?_⟩
  · exact ho.trans (if_pos hge)
  · rw [if_neg (Nat.not_le.2 hlt)] at ho
    exact ho.trans (if_pos hown)
  · rw [if_neg (Nat.not_le.2 hlt), if_neg hown] at ho
    exact ho.trans (if_pos hk)
  · rw [if_neg (Nat.not_le.2 hlt), if_neg hown, if_neg (by simp [hk])] at ho
    exact ho.trans (if_pos ⟨h1, h128⟩)
  · rw [if_neg (Nat.not_le.2 hlt), if_neg hown, if_neg (by simp [hk])] at ho
    exact ho.trans (if_neg hd)

/-! ## A ping response (R232, R233) -/

theorem lsGet_setOwnMask {s : State} (h : s.addr.myLogical.toNat < s.ls.length) (m : Word) (a : Byte) :
    lsGet (setOwnMask m s) a = if a = s.addr.myLogical then { lsGet s s.addr.myLogical with mask := m } else lsGet s a :=
  lsGet_lsSet s s.addr.myLogical a _ h

/-- A record that is another one with its mask replaced differs from it in the mask only. -/
theorem LsRecord.eq_of_maskSet {r r' : LsRecord} {m : Word} (h : r = { r' with mask := m }) :
    r = { r' with mask := r.mask } := by
  subst h; rfl

/-- The two records an accepted ping response writes: the neighbour's, and its bit of the own mask. -/
def recordPing (phys l : Byte) (s : State) : State :=
  setOwnMask (maskSet (lsGet s s.addr.myLogical).mask l.toNat) (nbSet s l { phys := phys, ttl := s.ttlCfg.nbTtl })

theorem lsGet_recordPing {s : State} (h : s.addr.myLogical.toNat < s.ls.length) (phys l a : Byte) :
    lsGet (recordPing phys l s) a = if a = s.addr.myLogical then
      { lsGet s s.addr.myLogical with mask := maskSet (lsGet s s.addr.myLogical).mask l.toNat }
    else lsGet s a := lsGet_setOwnMask (s := nbSet s l _) h _ a

theorem nbGet_recordPing {s : State} {l : Byte} (h : l.toNat < s.nb.length) (phys a : Byte) : nbGet (recordPing phys l s) a =
    if a = l then { phys := phys, ttl := s.ttlCfg.nbTtl } else nbGet s a := nbGet_nbSet s l a _ h

theorem notifyPingResponse_rejects {s : State} {l : Byte} (h : inRange s l = false) (phys : Byte) :
    notifyPingResponse phys l s = ({ acc := false, action := .prRejectRange, topo := false }, s) := if_pos h

theorem notifyPingResponse_accepts {s : State} {l : Byte} (h : inRange s l = true) (phys : Byte) :
    let clear := !(lsGet s s.addr.myLogical).mask.getLsbD l.toNat
    notifyPingResponse phys l s =
      ({ acc := true, action := .prAccepted, topo := clear }, raiseTopo clear (recordPing phys l s)) :=
  if_neg (by rw [h]; decide)

/-- RESULT of NOTIFY_PING_RESPONSE as the sum of its two bits (R233). -/
theorem pingResult_eq (acc topo : Bool) : bitAt 0 acc ||| bitAt 1 topo = BitVec.ofNat 32 (acc.toNat + 2 * topo.toNat) := by
  revert acc topo; decide

theorem exec_notifyPingResponse_rejects {s : State} (h : inRange s (arg0High s) = false) : exec .notifyPingResponse s =
    .next { s with result := 0, cmdStatus := { code := .ok, op := 0x21 } } := by
  rw [exec, execNotifyPingResponse_eq, notifyPingResponse_rejects h, pingResult_eq]; rfl

theorem exec_notifyPingResponse_accepts {s : State} (h : inRange s (arg0High s) = true) :
    let clear := !(lsGet s s.addr.myLogical).mask.getLsbD (arg0High s).toNat
    exec .notifyPingResponse s = .next { recordPing (arg0Low s) (arg0High s) s with
      flags.topoChanged := s.flags.topoChanged || clear
      result := BitVec.ofNat 32 (1 + 2 * clear.toNat), cmdStatus := { code := .ok, op := 0x21 } } := by
  rw [exec, execNotifyPingResponse_eq, notifyPingResponse_accepts h, pingResult_eq]; rfl

/-- Settles O30: the rejection, and the two record writes of an accepted response. -/
theorem pingResponseCommand : Obligations.PingResponseCommand := by
  intro s hw l me
  have hl : (arg0High s).toNat = l := arg0High_toNat s
  refine ⟨fun hge => exec_notifyPingResponse_rejects ((inRange_false_iff hw _).2 (hl ▸ hge)), fun hlt hls hnb hme => ?_⟩
  have hl' : BitVec.ofNat 8 l = arg0High s := by rw [← hl, BitVec.ofNat_toNat, BitVec.setWidth_eq]
  have hn := (wf_nodes hw).2
  have hgetLs := lsGet_recordPing (s := s) (hls ▸ hme) (arg0Low s) (arg0High s)
  have hgetNb := nbGet_recordPing (s := s) (l := arg0High s) (by omega) (arg0Low s)
  have hgetMe := (hgetLs me).trans (if_pos rfl)
  refine ⟨_, exec_notifyPingResponse_accepts ((inRange_iff hw _).2 (hl ▸ hlt)), ?_, fun a ha => ?_, fun i => ?_, ?_,
    fun a ha => (hgetLs a).trans (if_neg ha), ?_⟩
  · rw [hl', ← arg0Low_eq]
    exact (hgetNb _).trans (if_pos rfl)
  · exact (hgetNb a).trans (if_neg fun h => ha (by rw [h, hl]))
  · refine (congrArg (fun r => r.mask.getLsbD i) hgetMe).trans ?_
    rw [maskSet_bit _ _ _ (by omega), hl]
  · exact LsRecord.eq_of_maskSet hgetMe
  · rw [hl]
    cases (lsGet s me).mask.getLsbD l <;> rfl

/-! ## SET_OWN_SEQ (R235) -/

/-- Settles O32: one write to the own record. -/
theorem setOwnSeqCommand : Obligations.SetOwnSeqCommand := by
  intro s hme
  have hget (a : Byte) := lsGet_lsSet s s.addr.myLogical a { lsGet s s.addr.myLogical with seq := arg0Low s } hme
  refine ⟨_, rfl, ?_, fun a ha => (hget a).trans (if_neg ha), rfl⟩
  rw [← arg0Low_eq]
  exact (hget _).trans (if_pos rfl)

/-! ## Queries and record reads (R236-R239) -/

theorem lsGet_arg0Low (s : State) : lsGet s (arg0Low s) = s.ls.getD (s.arg0.toNat % 256) zeroLs := by
  rw [lsGet, arg0Low_toNat]

theorem nbGet_arg0Low (s : State) : nbGet s (arg0Low s) = s.nb.getD (s.arg0.toNat % 256) zeroNb := by
  rw [nbGet, arg0Low_toNat]

theorem Packs.eq_ofNat {v : Word} {k n : Nat} (h : Packs v k n) : v = BitVec.ofNat 32 n := by
  rw [← h.toNat, BitVec.ofNat_toNat, BitVec.setWidth_eq]

theorem bitAt_zero_eq (b : Bool) : bitAt 0 b = if b = true then 1 else 0 := by cases b <;> decide

theorem nodesLinked_iff {s : State} (hw : s.params.wf = true) (a b : Byte) : nodesLinked s a b = true ↔
    a.toNat < s.params.nNodes ∧ b.toNat < s.params.nNodes ∧ (a.toNat = s.addr.myLogical.toNat ∨ (lsGet s a).ttl ≠ 0) ∧
      (lsGet s a).mask.getLsbD b.toNat = true := by
  unfold nodesLinked
  simp only [inRange_false_iff hw, BitVec.toNat_inj]
  split_ifs with hr hd
  · simp; omega
  · obtain ⟨hne, hdead⟩ := hd
    exact ⟨nofun, fun ⟨_, _, hlive, _⟩ => hlive.elim (absurd · hne) (absurd hdead)⟩
  · rw [not_or, Nat.not_le, Nat.not_le] at hr
    rw [not_and_or, not_not] at hd
    exact ⟨fun hbit => ⟨hr.1, hr.2, hd, hbit⟩, fun ⟨_, _, _, hbit⟩ => hbit⟩

theorem deviceOnline_iff {s : State} (hw : s.params.wf = true) (a : Byte) : deviceOnline s a = true ↔
    a.toNat = s.addr.myLogical.toNat ∨ (a.toNat < s.params.nNodes ∧ (lsGet s a).ttl ≠ 0) := by
  simp only [deviceOnline, inRange_false_iff hw, own, BitVec.toNat_inj]
  split_ifs with ho hr
  · simp [ho]
  · simp [ho]; omega
  · simp [ho]; omega

/-- Settles O33: each command's RESULT, and MASK, from the record it reads. -/
theorem queryAndReadCommands : Obligations.QueryAndReadCommands := by
  intro s hw a b me l n
  have ha : (arg0Low s).toNat = a := arg0Low_toNat s
  have hb : (arg0High s).toNat = b := arg0High_toNat s
  have hl : lsGet s (arg0Low s) = l := lsGet_arg0Low s
  have hn : nbGet s (arg0Low s) = n := nbGet_arg0Low s
  refine ⟨?_, ?_, fun hge => ?_, fun hlt => ?_⟩
  · simp only [exec, execAreNodesLinked, bitAt_zero_eq, nodesLinked_iff hw, ha, hb, hl]; rfl
  · simp only [exec, execIsDeviceOnline, bitAt_zero_eq, deviceOnline_iff hw, ha, hl]; rfl
  · have hr : inRange s (arg0Low s) = false := (inRange_false_iff hw _).2 (ha ▸ hge)
    exact ⟨if_pos hr, if_pos hr⟩
  · have hr : inRange s (arg0Low s) = true := (inRange_iff hw _).2 (ha ▸ hlt)
    have hne : ¬ inRange s (arg0Low s) = false := by rw [hr]; decide
    have hls := (((packs_fieldAt l.seq).fieldAt 8 l.ttl).bitAt 16 l.known).bitAt 17 (decide (arg0Low s = own s))
    have hnb := (packs_fieldAt n.phys).fieldAt 8 n.ttl
    have hown : arg0Low s = own s ↔ a = me := by rw [← BitVec.toNat_inj, ha]; rfl
    refine ⟨(if_neg hne).trans ?_, (if_neg hne).trans ?_⟩
    · rw [hl, hls.eq_ofNat]
      simp only [Bool.toNat, hown, Bool.cond_eq_ite, decide_eq_true_eq]
      rfl
    · rw [hn, hnb.eq_ofNat]; rfl

end Sys2Proof.Machine
end

section
/-! AGE (43_linkstate.md R234): what one turn of each loop does, what each loop leaves after its first `k`
turns, and the command. -/

namespace Sys2Proof.Machine

section
variable {e : Half} {s t : State}

/-! ## One record -/

/-- The link-state record of `a` expires: it is live, not the own one, and has no more than `e` seconds left. -/
def lsExpires (e : Half) (s : State) (a : Byte) : Bool :=
  decide (a ≠ own s ∧ (lsGet s a).ttl ≠ 0 ∧ (lsGet s a).ttl.toNat ≤ e.toNat)

/-- The link-state record of `a` after AGE. -/
def agedLs (e : Half) (s : State) (a : Byte) : LsRecord :=
  if a = own s then lsGet s a
  else if lsExpires e s a then zeroLs
  else { lsGet s a with ttl := BitVec.ofNat 8 ((lsGet s a).ttl.toNat - e.toNat) }

/-- The neighbour record of `a` expires. -/
def nbExpires (e : Half) (s : State) (a : Byte) : Bool :=
  decide ((nbGet s a).ttl ≠ 0 ∧ (nbGet s a).ttl.toNat ≤ e.toNat)

/-- The neighbour record of `a` after AGE. -/
def agedNb (e : Half) (s : State) (a : Byte) : NbRecord :=
  if nbExpires e s a then zeroNb else { nbGet s a with ttl := BitVec.ofNat 8 ((nbGet s a).ttl.toNat - e.toNat) }

theorem agedLs_congr {a : Byte} (hrec : lsGet t a = lsGet s a) (hown : own t = own s) :
    lsExpires e t a = lsExpires e s a ∧ agedLs e t a = agedLs e s a := by
  simp [agedLs, lsExpires, hrec, hown]

theorem agedNb_congr {a : Byte} (hrec : nbGet t a = nbGet s a) :
    nbExpires e t a = nbExpires e s a ∧ agedNb e t a = agedNb e s a := by
  simp [agedNb, nbExpires, hrec]

theorem satSub_eq (ttl : Byte) (e : Half) : satSub ttl e = BitVec.ofNat 8 (ttl.toNat - e.toNat) := by
  unfold satSub
  split
  · rfl
  · rw [Nat.sub_eq_zero_of_le (by omega)]; rfl

theorem satSub_eq_zero_iff (ttl : Byte) (e : Half) : satSub ttl e = 0 ↔ ttl.toNat ≤ e.toNat := by
  have := ttl.isLt
  simp only [satSub_eq, ← BitVec.toNat_inj, BitVec.toNat_ofNat, BitVec.ofNat_eq_ofNat]
  omega

/-- A record whose time-to-live is 0 does not age. -/
theorem ofNat_zero_sub {ttl : Byte} (h : ttl = 0) (n : Nat) : BitVec.ofNat 8 (ttl.toNat - n) = ttl := by
  subst h; simp

/-- Writing an element of a list back changes nothing, whether it exists or not. -/
theorem list_set_getD {α : Type} (l : List α) (i : Nat) (d : α) : l.set i (l.getD i d) = l := by
  rcases Nat.lt_or_ge i l.length with h | h
  · rw [List.getD_eq_getElem _ _ h, List.set_getElem_self]
  · exact List.set_eq_of_length_le h

theorem lsSet_lsGet (s : State) (a : Byte) : lsSet s a (lsGet s a) = s := by rw [lsSet, lsGet, list_set_getD]

theorem nbSet_nbGet (s : State) (a : Byte) : nbSet s a (nbGet s a) = s := by rw [nbSet, nbGet, list_set_getD]

theorem setOwnMask_self (s : State) : setOwnMask (lsGet s (own s)).mask s = s := lsSet_lsGet s (own s)

theorem raiseTopo_false (s : State) : raiseTopo false s = s := by rw [raiseTopo, Bool.or_false]

/-! ## One turn of each loop -/

/-- One turn of the first loop writes the aged record, and counts it if it expires. -/
theorem ageLs_eq (e : Half) (s : State) (n : Nat) {a : Nat} {b : Byte} (hb : BitVec.ofNat 8 a = b) : ageLs e (s, n) a =
    (raiseTopo (lsExpires e s b) (lsSet s b (agedLs e s b)), n + if lsExpires e s b then 1 else 0) := by
  simp only [ageLs, hb, satSub_eq_zero_iff]
  split_ifs with hlive hexp hx hx hx
  · simp [agedLs, hlive.1, hx]
  · exact absurd (decide_eq_true ⟨hlive.1, hlive.2, hexp⟩) hx
  · exact absurd (of_decide_eq_true hx).2.2 hexp
  · simp [agedLs, hlive.1, hx, satSub_eq, raiseTopo_false]
  · exact absurd ⟨(of_decide_eq_true hx).1, (of_decide_eq_true hx).2.1⟩ hlive
  · have hkeep : agedLs e s b = lsGet s b := by
      unfold agedLs
      split_ifs with hown
      · rfl
      · have hz : (lsGet s b).ttl = 0 := by tauto
        rw [ofNat_zero_sub hz]
    simp [hx, hkeep, lsSet_lsGet, raiseTopo_false]

/-- One turn of the second loop writes the aged record, and counts it and clears its bit of the own mask if it expires. -/
theorem ageNb_eq (e : Half) (s : State) (n : Nat) {a : Nat} {b : Byte} (hb : BitVec.ofNat 8 a = b) : ageNb e (s, n) a =
    (raiseTopo (nbExpires e s b) (setOwnMask
      (if nbExpires e s b then maskClear (lsGet s (own s)).mask a else (lsGet s (own s)).mask) (nbSet s b (agedNb e s b))),
      n + if nbExpires e s b then 1 else 0) := by
  have hself (r : NbRecord) : setOwnMask (lsGet s (own s)).mask (nbSet s b r) = nbSet s b r := setOwnMask_self (nbSet s b r)
  simp only [ageNb, hb, satSub_eq_zero_iff]
  split_ifs with hlive hexp hx hx hx
  · simp [agedNb, hx]; rfl
  · exact absurd (decide_eq_true ⟨hlive, hexp⟩) hx
  · exact absurd (of_decide_eq_true hx).2 hexp
  · simp [agedNb, hx, satSub_eq, raiseTopo_false, hself]
  · exact absurd (of_decide_eq_true hx).1 hlive
  · have hkeep : agedNb e s b = nbGet s b := by
      have hz : (nbGet s b).ttl = 0 := by simpa using hlive
      rw [agedNb, if_neg hx, ofNat_zero_sub hz]
    simp [hx, hkeep, nbSet_nbGet, raiseTopo_false, setOwnMask_self]

/-! ## The loops -/

/-- What holds before the first turn of a loop over `0..n-1`, and is carried on by each turn, holds after the loop. -/
theorem foldl_range_induction {σ : Type} {P : Nat → σ → Prop} {f : σ → Nat → σ} {init : σ} {n : Nat}
    (h0 : P 0 init) (hs : ∀ k x, k < n → P k x → P (k + 1) (f x k)) : P n ((List.range n).foldl f init) := by
  induction n with
  | zero => exact h0
  | succ n ih =>
    rw [List.range_succ, List.foldl_append]
    exact hs n _ (Nat.lt_succ_self n) (ih fun k x hk => hs k x (by omega))

theorem countP_range_succ (p : Nat → Bool) (k : Nat) :
    (List.range (k + 1)).countP p = (List.range k).countP p + if p k then 1 else 0 := by
  rw [List.range_succ, List.countP_append, List.countP_singleton]

/-- Setting the record of address `k` extends what is set below `k` by one. -/
theorem ite_below_succ {α : Type} {b : Byte} {k : Nat} (hb : b.toNat = k) (f g : Byte → α) (a : Byte) :
    (if a = b then f b else if a.toNat < k then f a else g a) = if a.toNat < k + 1 then f a else g a := by
  rcases eq_or_ne a b with rfl | hne
  · rw [if_pos rfl, if_pos (by omega)]
  · have hne' : a.toNat ≠ k := fun h => hne (BitVec.eq_of_toNat_eq (h.trans hb.symm))
    rw [if_neg hne]
    exact if_congr (by omega) rfl rfl

/-- From `s` to `t` only records changed, and TOPO_CHANGED, which rose if any of `n` records expired. -/
def ExpiriesRaiseTopo (s t : State) (n : Nat) : Prop := t = { s with
  ls := t.ls, nb := t.nb, flags.topoChanged := s.flags.topoChanged || decide (0 < n) }

theorem ExpiriesRaiseTopo.refl (s : State) : ExpiriesRaiseTopo s s 0 := by simp [ExpiriesRaiseTopo]

theorem ExpiriesRaiseTopo.trans {u : State} {n m : Nat} (h : ExpiriesRaiseTopo s t n) (h' : ExpiriesRaiseTopo t u m) :
    ExpiriesRaiseTopo s u (n + m) := by
  have hpos : decide (0 < n + m) = (decide (0 < n) || decide (0 < m)) := by rw [← Bool.decide_or, decide_eq_decide]; omega
  unfold ExpiriesRaiseTopo at *
  rw [hpos, ← Bool.or_assoc, h', h]

/-- After `k` turns of the first loop: the records below `k` are aged, and the expired ones counted. -/
structure LsAged (e : Half) (s : State) (k : Nat) (t : State) (n : Nat) : Prop where
  frame : ExpiriesRaiseTopo s t n
  nb : t.nb = s.nb
  length : t.ls.length = s.ls.length
  records : ∀ a, lsGet t a = if a.toNat < k then agedLs e s a else lsGet s a
  count : n = (List.range k).countP fun a => lsExpires e s (BitVec.ofNat 8 a)

theorem LsAged.turn {k n : Nat} (h : LsAged e s k t n) (hk : k < s.ls.length) (h256 : k < 256) :
    LsAged e s (k + 1) (ageLs e (t, n) k).1 (ageLs e (t, n) k).2 := by
  obtain ⟨hframe, hnb, hlen, hrec, hcount⟩ := h
  generalize hb : BitVec.ofNat 8 k = b
  have hbk : b.toNat = k := by rw [← hb, BitVec.toNat_ofNat]; omega
  have hown : own t = own s := by rw [hframe]; rfl
  obtain ⟨hx, hr⟩ := agedLs_congr (e := e) ((hrec b).trans (if_neg (by omega))) hown
  rw [ageLs_eq e t n hb, hx, hr]
  refine ⟨hframe.trans ?_, hnb, List.length_set.trans hlen, fun a => ?_, ?_⟩
  · cases lsExpires e s b <;> rfl
  · refine (lsGet_lsSet t b a _ (by rw [hbk, hlen]; exact hk)).trans ?_
    rw [hrec a]
    exact ite_below_succ hbk _ _ a
  · rw [countP_range_succ, hb, hcount]

theorem addresses_eq (hw : s.params.wf = true) : addresses s = List.range s.params.nNodes := by
  rw [addresses, maxAddress, Nat.sub_add_cancel (wf_nodes hw).1]

theorem ageLsAll_aged (e : Half) (hw : s.params.wf = true) (hls : s.ls.length = s.params.nNodes) :
    LsAged e s s.params.nNodes (ageLsAll e s).1 (ageLsAll e s).2 := by
  have hn := wf_nodes hw
  rw [ageLsAll, addresses_eq hw]
  exact foldl_range_induction (P := fun k (acc : State × Nat) => LsAged e s k acc.1 acc.2)
    ⟨.refl s, rfl, rfl, fun _ => rfl, rfl⟩ fun k acc hk h => h.turn (by omega) (by omega)

/-- After `k` turns of the second loop: the records below `k` are aged, and the expired ones counted and taken out of the own
mask. -/
structure NbAged (e : Half) (s : State) (k : Nat) (t : State) (n : Nat) : Prop where
  frame : ExpiriesRaiseTopo s t n
  lsLength : t.ls.length = s.ls.length
  length : t.nb.length = s.nb.length
  records : ∀ a, nbGet t a = if a.toNat < k then agedNb e s a else nbGet s a
  others : ∀ a, a ≠ own s → lsGet t a = lsGet s a
  ownRecord : lsGet t (own s) = { lsGet s (own s) with mask := (lsGet t (own s)).mask }
  ownMask : ∀ i, (lsGet t (own s)).mask.getLsbD i =
    ((lsGet s (own s)).mask.getLsbD i && !(decide (i < k) && nbExpires e s (BitVec.ofNat 8 i)))
  count : n = (List.range k).countP fun a => nbExpires e s (BitVec.ofNat 8 a)

theorem NbAged.turn {k n : Nat} (h : NbAged e s k t n) (hk : k < s.nb.length) (h256 : k < 256)
    (hme : (own s).toNat < s.ls.length) : NbAged e s (k + 1) (ageNb e (t, n) k).1 (ageNb e (t, n) k).2 := by
  obtain ⟨hframe, hlsLen, hlen, hrec, hothers, hownRec, hownMask, hcount⟩ := h
  generalize hb : BitVec.ofNat 8 k = b
  have hbk : b.toNat = k := by rw [← hb, BitVec.toNat_ofNat]; omega
  have hown : own t = own s := by rw [hframe]; rfl
  obtain ⟨hx, hr⟩ := agedNb_congr (e := e) ((hrec b).trans (if_neg (by omega)))
  rw [ageNb_eq e t n hb, hx, hr, hown]
  generalize hm : (if nbExpires e s b then maskClear (lsGet t (own s)).mask k else (lsGet t (own s)).mask) = m
  have hget (a : Byte) : lsGet (setOwnMask m (nbSet t b (agedNb e s b))) a =
      if a = own s then { lsGet t (own s) with mask := m } else lsGet t a := by
    rw [← hown]
    exact lsGet_setOwnMask (s := nbSet t b _) (show (own t).toNat < t.ls.length by rw [hown, hlsLen]; exact hme) m a
  have hgetOwn := (hget (own s)).trans (if_pos rfl)
  have hbit (i : Nat) : m.getLsbD i = ((lsGet t (own s)).mask.getLsbD i && !(decide (i = k) && nbExpires e s b)) := by
    rw [← hm]
    split_ifs with hexp
    · rw [maskClear_bit, hexp, Bool.and_true]
    · rw [eq_false_of_ne_true hexp, Bool.and_false, Bool.not_false, Bool.and_true]
  refine ⟨hframe.trans ?_, List.length_set.trans hlsLen, List.length_set.trans hlen, fun a => ?_,
    fun a ha => ((hget a).trans (if_neg ha)).trans (hothers a ha), ?_, fun i => ?_, ?_⟩
  · cases nbExpires e s b <;> rfl
  · refine (nbGet_nbSet t b a _ (by rw [hbk, hlen]; exact hk)).trans ?_
    rw [hrec a]
    exact ite_below_succ hbk _ _ a
  · refine LsRecord.eq_of_maskSet (m := m) (hgetOwn.trans ?_)
    rw [hownRec]
  · refine (congrArg (fun r => r.mask.getLsbD i) hgetOwn).trans ?_
    rw [hbit, hownMask, Bool.and_assoc, ← Bool.not_or]
    rcases eq_or_ne i k with rfl | hne
    · simp [hb]
    · have hlt : i < k + 1 ↔ i < k := by omega
      simp [hne, hlt]
  · rw [countP_range_succ, hb, hcount]

theorem ageNbAll_aged (e : Half) (hw : s.params.wf = true) (hnb : s.nb.length = s.params.nNodes)
    (hme : (own s).toNat < s.ls.length) : NbAged e s s.params.nNodes (ageNbAll e s).1 (ageNbAll e s).2 := by
  have hn := wf_nodes hw
  rw [ageNbAll, addresses_eq hw]
  exact foldl_range_induction (P := fun k (acc : State × Nat) => NbAged e s k acc.1 acc.2)
    ⟨.refl s, rfl, rfl, fun _ => rfl, fun _ _ => rfl, rfl, by simp, rfl⟩ fun k acc hk h => h.turn (by omega) (by omega) hme

/-! ## The command -/

theorem lsGet_ofNat {a : Nat} (h : a < 256) : lsGet s (BitVec.ofNat 8 a) = s.ls.getD a zeroLs := by
  rw [lsGet, BitVec.toNat_ofNat, Nat.mod_eq_of_lt h]

theorem nbGet_ofNat {a : Nat} (h : a < 256) : nbGet s (BitVec.ofNat 8 a) = s.nb.getD a zeroNb := by
  rw [nbGet, BitVec.toNat_ofNat, Nat.mod_eq_of_lt h]

theorem ofNat_eq_own_iff {a : Nat} (h : a < 256) : BitVec.ofNat 8 a = own s ↔ a = (own s).toNat := by
  rw [← BitVec.toNat_inj, BitVec.toNat_ofNat, Nat.mod_eq_of_lt h]

theorem lsExpires_iff {a : Nat} (h : a < 256) : lsExpires e s (BitVec.ofNat 8 a) = true ↔
    a ≠ (own s).toNat ∧ (s.ls.getD a zeroLs).ttl ≠ 0 ∧ (s.ls.getD a zeroLs).ttl.toNat ≤ e.toNat := by
  rw [lsExpires, decide_eq_true_iff, lsGet_ofNat h, ne_eq, ofNat_eq_own_iff h]

theorem nbExpires_iff {a : Nat} (h : a < 256) : nbExpires e s (BitVec.ofNat 8 a) = true ↔
    (s.nb.getD a zeroNb).ttl ≠ 0 ∧ (s.nb.getD a zeroNb).ttl.toNat ≤ e.toNat := by
  rw [nbExpires, decide_eq_true_iff, nbGet_ofNat h]

/-- What AGE leaves of the records, before RESULT is written: both loops together. -/
structure Aged (e : Half) (s t : State) (nls nnb : Nat) : Prop where
  frame : ExpiriesRaiseTopo s t (nls + nnb)
  ls : ∀ a, a.toNat < s.params.nNodes → a ≠ own s → lsGet t a = agedLs e s a
  nb : ∀ a, a.toNat < s.params.nNodes → nbGet t a = agedNb e s a
  ownRecord : lsGet t (own s) = { lsGet s (own s) with mask := (lsGet t (own s)).mask }
  ownMask : ∀ i, (lsGet t (own s)).mask.getLsbD i =
    ((lsGet s (own s)).mask.getLsbD i && !(decide (i < s.params.nNodes) && nbExpires e s (BitVec.ofNat 8 i)))
  lsCount : nls = (List.range s.params.nNodes).countP fun a => lsExpires e s (BitVec.ofNat 8 a)
  nbCount : nnb = (List.range s.params.nNodes).countP fun a => nbExpires e s (BitVec.ofNat 8 a)

section
variable {nls nnb a : Nat} (h : Aged (arg0Half s) s t nls nnb) (h256 : a < 256) (ha : a < s.params.nNodes)
include h h256 ha

theorem Aged.getD_ls (hne : a ≠ (own s).toNat) : t.ls.getD a zeroLs =
    if lsExpires (arg0Half s) s (BitVec.ofNat 8 a) then zeroLs
    else { s.ls.getD a zeroLs with ttl := BitVec.ofNat 8 ((s.ls.getD a zeroLs).ttl.toNat - s.arg0.toNat % 65536) } := by
  have hown : BitVec.ofNat 8 a ≠ own s := mt (ofNat_eq_own_iff h256).1 hne
  have hb : (BitVec.ofNat 8 a).toNat < s.params.nNodes := by rwa [BitVec.toNat_ofNat, Nat.mod_eq_of_lt h256]
  rw [← lsGet_ofNat h256, h.ls _ hb hown, agedLs, if_neg hown, lsGet_ofNat h256, arg0Half_toNat]

theorem Aged.getD_nb : t.nb.getD a zeroNb =
    if nbExpires (arg0Half s) s (BitVec.ofNat 8 a) then zeroNb
    else { s.nb.getD a zeroNb with ttl := BitVec.ofNat 8 ((s.nb.getD a zeroNb).ttl.toNat - s.arg0.toNat % 65536) } := by
  have hb : (BitVec.ofNat 8 a).toNat < s.params.nNodes := by rwa [BitVec.toNat_ofNat, Nat.mod_eq_of_lt h256]
  rw [← nbGet_ofNat h256, h.nb _ hb, agedNb, nbGet_ofNat h256, arg0Half_toNat]

end

theorem LsAged.aged {nls nnb : Nat} {u : State} (h : LsAged e s s.params.nNodes u nls)
    (h' : NbAged e u s.params.nNodes t nnb) : Aged e s t nls nnb := by
  have hown : own u = own s := by rw [h.frame]; rfl
  have hu : lsGet u (own s) = lsGet s (own s) := by
    rw [h.records, agedLs, if_pos rfl, ite_self]
  have hnb (a : Byte) := agedNb_congr (e := e) (nbGet_congr h.nb a)
  have hownRec := h'.ownRecord
  have hownMask := h'.ownMask
  rw [hown, hu] at hownRec
  simp only [hown, hu, (hnb _).1] at hownMask
  refine ⟨h.frame.trans h'.frame, fun a ha hne => ?_, fun a ha => ?_, hownRec, hownMask, h.count, ?_⟩
  · rw [h'.others a (hown ▸ hne), h.records, if_pos ha]
  · rw [h'.records, if_pos ha, (hnb a).2]
  · simp only [h'.count, (hnb _).1]

theorem exec_age (hw : s.params.wf = true) (hls : s.ls.length = s.params.nNodes) (hnb : s.nb.length = s.params.nNodes)
    (hme : (own s).toNat < s.params.nNodes) : ∃ t nls nnb, Aged (arg0Half s) s t nls nnb ∧
      exec .age s = .next { t with
        result := BitVec.ofNat 32 (nls + 256 * nnb), cmdStatus := { code := .ok, op := 0x22 } } := by
  have hL := ageLsAll_aged (arg0Half s) hw hls
  have hparams : (ageLsAll (arg0Half s) s).1.params = s.params := by rw [hL.frame]
  have hown : own (ageLsAll (arg0Half s) s).1 = own s := by rw [hL.frame]; rfl
  have hN := ageNbAll_aged (s := (ageLsAll (arg0Half s) s).1) (arg0Half s) (by rwa [hparams]) (by rw [hparams, hL.nb, hnb])
    (by rw [hown, hL.length, hls]; exact hme)
  rw [hparams] at hN
  refine ⟨_, _, _, hL.aged hN, ?_⟩
  have hn := (wf_nodes hw).2
  have hle (p : Nat → Bool) : (List.range s.params.nNodes).countP p < 2 ^ 8 := by
    have := List.countP_le_length (p := p) (l := List.range s.params.nNodes)
    rw [List.length_range] at this
    omega
  have hpack := (packs_countAt (w := 8) (hL.count ▸ hle _)).countAt 8 (w := 8) (hN.count ▸ hle _)
  rw [exec, execAge_eq, hpack.eq_ofNat]
  rfl

end

/-- Settles O31: the two loops one after the other, record by record. -/
theorem ageExpiresRecords : Obligations.AgeExpiresRecords := by
  intro s hw hls hnb hme
  obtain ⟨t, nls, nnb, h, hx⟩ := exec_age hw hls hnb hme
  have hn := (wf_nodes hw).2
  refine ⟨_, hx, ?_⟩
  intro e me lsOut nbOut nls' nnb'
  have hlsOut (a : Nat) (ha : a < s.params.nNodes) : lsExpires (arg0Half s) s (BitVec.ofNat 8 a) = true ↔ lsOut a := by
    rw [lsExpires_iff (by omega), arg0Half_toNat]; rfl
  have hnbOut (a : Nat) (ha : a < s.params.nNodes) : nbExpires (arg0Half s) s (BitVec.ofNat 8 a) = true ↔ nbOut a := by
    rw [nbExpires_iff (by omega), arg0Half_toNat]
  have hnls : nls = nls' := h.lsCount.trans (List.countP_congr fun a ha => by
    rw [hlsOut a (List.mem_range.1 ha), decide_eq_true_iff])
  have hnnb : nnb = nnb' := h.nbCount.trans (List.countP_congr fun a ha => by
    rw [hnbOut a (List.mem_range.1 ha), decide_eq_true_iff])
  refine ⟨fun a ha hne => ?_, LsRecord.eq_of_maskSet h.ownRecord, fun i hi => ?_, fun i hi => ?_, fun a ha => ?_, ?_⟩
  · have hget : t.ls.getD a zeroLs = _ := h.getD_ls (by omega) ha hne
    exact ⟨fun hout => hget.trans (if_pos ((hlsOut a ha).2 hout)),
      fun hout => hget.trans (if_neg (mt (hlsOut a ha).1 hout))⟩
  · refine (h.ownMask i).trans ?_
    rw [decide_eq_true hi, Bool.true_and, Bool.eq_iff_iff.2 ((hnbOut i hi).trans decide_eq_true_iff.symm)]
    rfl
  · refine (h.ownMask i).trans ?_
    rw [decide_eq_false (Nat.not_lt.2 hi), Bool.false_and, Bool.not_false, Bool.and_true]
    rfl
  · have hget : t.nb.getD a zeroNb = _ := h.getD_nb (by omega) ha
    exact ⟨fun hout => hget.trans (if_pos ((hnbOut a ha).2 hout)),
      fun hout => hget.trans (if_neg (mt (hnbOut a ha).1 hout))⟩
  · rw [← hnls, ← hnnb, show t = _ from h.frame]

end Sys2Proof.Machine
end

section
/-! TOPO_CHANGED (43_linkstate.md R241): which commands and events leave it, and which can only clear it. -/

namespace Sys2Proof.Machine

section
variable {s t : State}

/-! ## Commands -/

/-- Only PARSE_PACKET, NOTIFY_PING_RESPONSE and AGE raise TOPO_CHANGED, and only SOFT_RESET clears it. -/
theorem exec_keeps_topoChanged {i : Instr} (h : exec i s = .next t) (hi : i ≠ .softReset)
    (hr : i ∉ [.parsePacket, .notifyPingResponse, .age]) : t.flags.topoChanged = s.flags.topoChanged := by
  rcases instr_group i with hq | rfl | hr' | hb | rfl | rfl | rfl | hc | rfl
  · rw [exec_query_frame h hq]
  · rw [exec_readLsRecord_frame h]
  · have hown : i = .setOwnSeq := by simp only [List.mem_cons, List.not_mem_nil] at hr hr'; tauto
    subst hown
    rw [exec, execSetOwnSeq, finishOk_next] at h
    rw [h]; rfl
  · rw [exec_txBuffer_frame h hb]
  · rw [exec_rxRelease_frame h]
  · rw [exec_arqAbort_frame h]
  · rw [exec_arqSend_frame h]
  · rw [exec_codec_frame h hc]
  · exact absurd rfl hi

/-- A command word after which TOPO_CHANGED is newly set is one of the three. -/
theorem runCommand_topoChanged {v : Word} (h : runCommand v s = .next t) (hs : s.flags.topoChanged = false)
    (ht : t.flags.topoChanged = true) :
    decode v = .ok .parsePacket ∨ decode v = .ok .notifyPingResponse ∨ decode v = .ok .age := by
  unfold runCommand at h
  split at h
  · rename_i i hdec
    by_cases hi : i = .softReset
    · subst hi
      rw [exec_softReset_eq h] at ht
      cases ht
    · have hmem : i ∈ [.parsePacket, .notifyPingResponse, .age] := by
        by_contra hr
        rw [exec_keeps_topoChanged h hi hr, hs] at ht
        exact absurd ht (by decide)
      simpa [hdec] using hmem
  · cases h
    exact absurd (hs.symm.trans ht) (by decide)

/-! ## The other accesses and steps -/

/-- A write to a register other than CMD leaves TOPO_CHANGED, or clears it. -/
theorem writeReg_topoChanged {r : PortReg} {v : Word} (h : writeReg r v s = .next t) (hr : r ≠ .cmd)
    (ht : t.flags.topoChanged = true) : s.flags.topoChanged = true := by
  cases r with
  | cmd => exact absurd rfl hr
  | ctrl =>
    cases h
    obtain ⟨c, hc | hc⟩ := writeCtrl_cases v s
    · rw [hc] at ht; exact ht
    · rw [hc, abortSend_frame] at ht; exact ht
  | addr => cases h; unfold writeAddr at ht; split at ht <;> exact ht
  | status => cases h; exact Bool.and_elim_left ht
  | _ => cases h; exact ht

theorem txIssue_topoChanged (s : State) : (txIssue s).flags.topoChanged = s.flags.topoChanged := by
  rcases txIssue_cases s with hc | ⟨-, hc | ⟨-, hc⟩⟩ <;> rw [hc] <;> rfl

theorem dataCompletion_topoChanged (ok : Bool) (s : State) :
    (dataCompletion ok s).flags.topoChanged = s.flags.topoChanged := by
  rcases dataCompletion_cases ok s with ⟨code, hc⟩ | hc | ⟨-, hc⟩
  · rw [hc]; rfl
  · rw [hc]; rfl
  · rw [hc, arqCheckAck_frame]; rfl

theorem txDone_topoChanged (ok : Bool) (s : State) : (txDone ok s).flags.topoChanged = s.flags.topoChanged := by
  cases hf : s.port.txInflight with
  | none => rw [txDone_none ok hf]
  | ack => rw [txDone_control ok (.inl hf)]; rfl
  | orphan => rw [txDone_control ok (.inr hf)]; rfl
  | data => rw [txDone_data ok hf]; exact dataCompletion_topoChanged ok (freePort s)

theorem msTick_topoChanged (s : State) : (msTick s).flags.topoChanged = s.flags.topoChanged := by
  rcases msTick_cases s with hc | ⟨-, hc | hc | hc⟩ <;> rw [hc] <;> rfl

/-- A host write after which TOPO_CHANGED is newly set is a command word written to CMD. -/
theorem hostWrite_topoChanged {off : BitVec 10} {size : Nat} {v : Word} (h : hostWrite off size v s = .next t)
    (hs : s.flags.topoChanged = false) (ht : t.flags.topoChanged = true) :
    off = 0x018 ∧ (decode v = .ok .parsePacket ∨ decode v = .ok .notifyPingResponse ∨ decode v = .ok .age) := by
  have hrise (h' : s.flags.topoChanged = true) : False := by rw [hs] at h'; cases h'
  unfold hostWrite at h
  split at h
  · split at h
    · rename_i r hr
      by_cases hcmd : r = .cmd
      · subst hcmd
        exact ⟨portTarget_eq_reg_iff.1 hr, runCommand_topoChanged h hs ht⟩
      · exact (hrise (writeReg_topoChanged h hcmd ht)).elim
    · cases h
      rw [writeWindow_frame] at ht
      exact (hrise ht).elim
    · cases h
      exact (hrise ht).elim
  · cases h
    exact (hrise ht).elim

end

/-- Settles O57: every other event leaves TOPO_CHANGED, or clears it. -/
theorem topoChangedRisesOnlyAtRecordUpdates : Obligations.TopoChangedRisesOnlyAtRecordUpdates := by
  intro e s t h hs ht
  have hkept (heq : t.flags.topoChanged = s.flags.topoChanged) : False := by rw [heq, hs] at ht; cases ht
  cases e with
  | rxTake => exact .inl rfl
  | hostWrite off size v => exact .inr ⟨off, size, v, rfl, hostWrite_topoChanged h hs ht⟩
  | hostRead off size => cases h; exact (hkept (by rw [hostRead_frame])).elim
  | rxOffer f => cases h; exact (hkept rfl).elim
  | txIssue => cases h; exact (hkept (txIssue_topoChanged s)).elim
  | txDone ok => cases h; exact (hkept (txDone_topoChanged ok s)).elim
  | msTick => cases h; exact (hkept (msTick_topoChanged s)).elim
  | hardReset => cases h; cases ht

end Sys2Proof.Machine
end

section
/-! The system commands (44_system.md R250-R252): a command word written to CMD as the next event, NOP, and what SOFT_RESET
leaves in the registers, the buffers and the records. -/

namespace Sys2Proof.Machine

/-! ## A write to CMD (R90, R94, R252) -/

theorem runEvent_commandWrite (w : Word) (s : State) : runEvent (commandWrite w) s = runCommand w s :=
  runEvent_hostWrite_reg .cmd w s

theorem opcodeField_eq_setWidth (w : Word) : opcodeField w = w.setWidth 8 := by
  rw [← BitVec.toNat_inj, opcodeField_toNat, BitVec.toNat_setWidth]

theorem decode_illegal {w : Word} (h : ∀ i, opcodeField w ≠ opcode i) :
    decode w = .error (.illegalOpcode (opcodeField w)) := by
  cases hl : lookupOpcode (opcodeField w) opcodeTable with
  | none => simp only [decode, hl]
  | some i => exact absurd ((lookupOpcode_iff _ i).1 hl) (h i)

theorem runCommand_legal {w : Word} {i : Instr} (h : decode w = .ok i) (s : State) : runCommand w s = exec i s := by
  simp only [runCommand, h]

theorem runCommand_illegal {w : Word} (h : ∀ i, opcodeField w ≠ opcode i) (s : State) : runCommand w s =
    .next { s with cmdStatus := { code := .illegalCmd, op := opcodeField w } } := by
  simp only [runCommand, decode_illegal h, illegalCommand]

/-- Settles O7: the step is the write's event, and the write runs the word by whether its opcode is in the table. -/
theorem commandWriteRunsTheDecodedCommand : Obligations.CommandWriteRunsTheDecodedCommand := by
  intro s w rest hw ha
  rw [step_agenda hw ha, runEvent_commandWrite]
  refine ⟨fun i hi => runCommand_legal hi _, fun hop => ?_⟩
  rw [← opcodeField_eq_setWidth]
  exact runCommand_illegal (fun i hi => hop i (by rw [← hi, opcodeField_toNat])) _

/-! ## NOP (R250) -/

/-- Settles O10: NOP writes nothing and finishes OK with its opcode. -/
theorem nopChangesOnlyCmdStatus : Obligations.NopChangesOnlyCmdStatus := fun s =>
  (finishOk_next .nop s _).2 rfl

/-! ## SOFT_RESET (R251) -/

section
variable (s : State)

theorem exec_softReset : exec .softReset s = .next { softReset s with cmdStatus := { code := .ok, op := 0xFF } } :=
  (finishOk_next .softReset (softReset s) _).2 rfl

theorem orphaned_eq (i : TxInflight) : orphaned i = if i = .none then .none else .orphan := by cases i <;> rfl

theorem softReset_port : (softReset s).port =
    { State.reset.port with txInflight := if s.port.txInflight = .none then .none else .orphan } := by
  rw [← orphaned_eq]; rfl

/-- STATUS shows only an orphan in flight. -/
theorem readReg_softReset_status :
    readReg (softReset s) .status = if s.port.txInflight = .none then 0 else 0x0000C000 := by
  show readReg { State.reset with port.txInflight := orphaned s.port.txInflight } .status = _
  cases s.port.txInflight <;> decide

theorem readReg_reset_zero {r : PortReg} (hr : r ∉ [.params, .framing, .ctrl, .ttlCfg]) : readReg State.reset r = 0 := by
  cases r with
  | params | framing | ctrl | ttlCfg => exact absurd hr (by decide)
  | _ => decide

/-- A register that holds no configuration and does not report the reset itself reads as after hardware reset. -/
theorem readReg_softReset_zero {r : PortReg}
    (hr : r ∉ [.params, .framing, .ctrl, .addr, .irqEn, .arqCfg, .ttlCfg, .cmdStatus, .status]) :
    readReg (softReset s) r = 0 := by
  rw [← readReg_reset_zero fun h => hr (List.Sublist.subset (by decide) h)]
  cases r with
  | params | framing | ctrl | addr | irqEn | arqCfg | ttlCfg | cmdStatus | status => exact absurd hr (by decide)
  | _ => rfl

theorem bufRead_softReset (b : Buf) (i : Nat) : bufRead (softReset s).mem b i = 0 := ite_self _

theorem lsGet_softReset (a : Byte) : lsGet (softReset s) a = zeroLs := by simp [lsGet, softReset, State.resetOf]

theorem nbGet_softReset (a : Byte) : nbGet (softReset s) a = zeroNb := by simp [nbGet, softReset, State.resetOf]

/-- CMD_STATUS is read from its own element only, and no other register is. -/
theorem readReg_setCmdStatus (c : CmdStatus) (r : PortReg) : readReg { s with cmdStatus := c } r =
    if r = .cmdStatus then fieldAt 0 (cmdCodeBits c.code) ||| fieldAt 8 c.op else readReg s r := by
  cases r <;> rfl

end

/-- Settles O11: CMD_STATUS holds the command's end, and everything else is `softReset`'s. -/
theorem softResetKeepsConfiguration : Obligations.SoftResetKeepsConfiguration := by
  intro s
  refine ⟨_, exec_softReset s, rfl, rfl, rfl, rfl, rfl, rfl, rfl, ?cmdStatus, ?status, ?zeros,
    bufRead_softReset s, fun a => ⟨lsGet_softReset s a, nbGet_softReset s a⟩, rfl, rfl, rfl, softReset_port s⟩
  case cmdStatus => rw [readReg_setCmdStatus, if_pos rfl]; decide
  case status => rw [readReg_setCmdStatus, if_neg (by decide), readReg_softReset_status]
  case zeros =>
    intro r hr
    have hne : r ≠ .cmdStatus := by rintro rfl; exact hr (by decide)
    rw [readReg_setCmdStatus, if_neg hne, readReg_softReset_zero s hr]

end Sys2Proof.Machine
end

section
/-! Exceptions (60_exceptions.md): how each command ends and which errors it can end with (R253, R260), the instances a step
refuses (R264), and the fields of STATUS with the interrupt output (R27, R265). -/

namespace Sys2Proof.Machine

/-! ## How a command ends (R33, R253, R260) -/

/-- The conditions under which the command `i` may end with the error `code`, by R260's table and R253's conditions. -/
abbrev FailsWith (i : Instr) (s : State) : CmdCode → Prop
  | .ok | .illegalCmd => False
  | .busy => i ∈ [.txAlloc, .arqSend, .stuff, .unstuff] ∧ s.tx.arqState ≠ .idle ∧ s.tx.arqState ≠ .done
  | .disabled => i = .arqSend ∧ s.ctrl.enable = false
  | .noBuffer => i ∈ [.txDiscard, .arqSend, .stuff, .unstuff, .parsePacket] ∧ s.tx.txOwned = false
  | .packetTooBig =>
    (i = .txAlloc ∧ 128 < s.arg0.toNat % 256) ∨
    (i = .arqSend ∧ (128 < s.arg0.toNat / 256 % 256 ∨ (s.arg0.toNat % 256 = 255 ∧ 23 < s.arg0.toNat / 256 % 256)))
  | .invalidArg =>
    (i = .txAlloc ∧ s.arg0.toNat % 256 = 0) ∨
    (i = .arqSend ∧ (s.arg0.toNat / 256 % 256 = 0 ∨ s.tx.allocLen < s.arg0.toNat / 256 % 256)) ∨
    (i ∈ [.cksumGen, .cksumVerify] ∧
      (1 < s.arg1.toNat % 4 ∨ 128 < s.arg0.toNat % 256 + s.arg0.toNat / 256 % 256)) ∨
    (i = .stuff ∧ (s.arg0.toNat % 256 < 1 ∨ 31 < s.arg0.toNat % 256)) ∨
    (i = .unstuff ∧ (s.arg0.toNat % 256 < 1 ∨ 64 < s.arg0.toNat % 256)) ∨
    (i = .parsePacket ∧ 128 < s.arg0.toNat % 256) ∨
    (i ∈ [.readLsRecord, .readNbRecord] ∧ s.params.nNodes ≤ s.arg0.toNat % 256)

/-- The two ends of the command `i` run in `s`: it finishes OK in some state, or raises an error in `s` itself. -/
inductive CommandEnd (i : Instr) (s : State) : Host.Outcome State Fault Refusal → Prop
  | ok (u : State) : CommandEnd i s (finishOk i u)
  | error {code : CmdCode} (h : FailsWith i s code) : CommandEnd i s (raiseCmdError i code s)

theorem CommandEnd.result {i : Instr} {s : State} (v : Word) (u : State) : CommandEnd i s (finishResult i v u) :=
  .ok { u with result := v }

section
variable {s : State}

theorem notIdle (h : idleish s = false) : s.tx.arqState ≠ .idle ∧ s.tx.arqState ≠ .done :=
  not_or.1 ((idleish_false s).1 h)

/-- An address above MAX is not below N_NODES, also when there is no node. -/
theorem nNodes_le_of_not_inRange (h : inRange s (arg0Low s) = false) : s.params.nNodes ≤ s.arg0.toNat % 256 := by
  rw [inRange, decide_eq_false_iff_not, arg0Low_toNat, maxAddress] at h
  omega

/-! ### Packet buffer and sender commands -/

theorem exec_txAlloc_end : CommandEnd .txAlloc s (exec .txAlloc s) := by
  simp only [exec, execTxAlloc, arg0Low_toNat]
  split_ifs with hbusy hzero hbig
  · exact .error ⟨by decide, notIdle hbusy⟩
  · exact .error (.inl ⟨rfl, hzero⟩)
  · exact .error (.inl ⟨rfl, hbig⟩)
  · exact .ok _

theorem exec_txDiscard_end : CommandEnd .txDiscard s (exec .txDiscard s) := by
  simp only [exec, execTxDiscard]
  split_ifs with hown
  · exact .error ⟨by decide, hown⟩
  · exact .ok _

theorem arqSendCheck_failsWith {code : CmdCode} (h : arqSendCheck s = some code) : FailsWith .arqSend s code := by
  rw [arqSendCheck_eq] at h
  split_ifs at h with hen hbusy hown hbig hbad <;> cases h
  · exact ⟨rfl, hen⟩
  · exact ⟨by decide, notIdle hbusy⟩
  · exact ⟨by decide, hown⟩
  · exact .inr ⟨rfl, hbig⟩
  · exact .inr (.inl ⟨rfl, hbad⟩)

theorem exec_arqSend_end : CommandEnd .arqSend s (exec .arqSend s) := by
  simp only [exec, execArqSend]
  split
  · next code hcheck => exact .error (arqSendCheck_failsWith hcheck)
  · exact .ok _

theorem exec_rxRelease_end : CommandEnd .rxRelease s (exec .rxRelease s) := by
  simp only [exec, execRxRelease]
  split_ifs
  · exact .ok _
  · exact .ok _

/-! ### Checksum and codec commands -/

theorem checksumCommand_end {i : Instr} (hi : i ∈ [.cksumGen, .cksumVerify]) (f : CkMode → List Byte → Word) :
    CommandEnd i s (checksumCommand i f s) := by
  unfold checksumCommand
  split
  · next hnone =>
    have hmode : 1 < s.arg1.toNat % 4 := by
      rcases arg1Mode_cases s with ⟨-, h⟩ | ⟨-, h⟩ | ⟨h, -⟩
      · cases hnone.symm.trans h
      · cases hnone.symm.trans h
      · exact h
    exact .error (.inr (.inr (.inl ⟨hi, .inl hmode⟩)))
  · split_ifs with hrange
    · rw [arg0Low_toNat, arg0High_toNat] at hrange
      exact .error (.inr (.inr (.inl ⟨hi, .inr hrange⟩)))
    · exact .result _ _

theorem codecCommand_end {i : Instr} (hi : i ∈ [.stuff, .unstuff]) {maxLen : Nat}
    (f : List Byte → Nat → Option (List Byte))
    (hlen : s.arg0.toNat % 256 < 1 ∨ maxLen < s.arg0.toNat % 256 → FailsWith i s .invalidArg) :
    CommandEnd i s (codecCommand i maxLen f s) := by
  simp only [codecCommand, arg0Low_toNat]
  split_ifs with hbusy hown hbad
  · exact .error ⟨List.Sublist.subset (by decide) hi, notIdle hbusy⟩
  · exact .error ⟨List.Sublist.subset (by decide) hi, hown⟩
  · exact .error (hlen hbad)
  · unfold codecFinish
    split
    · exact .result _ _
    · exact .result _ _

/-! ### Commands on packets and records -/

theorem exec_parsePacket_end : CommandEnd .parsePacket s (exec .parsePacket s) := by
  simp only [exec, execParsePacket, arg0Low_toNat]
  split_ifs with hown hbig
  · exact .error ⟨by decide, hown⟩
  · exact .error (.inr (.inr (.inr (.inr (.inr (.inl ⟨rfl, hbig⟩))))))
  · exact .result _ _

/-- A record may be read only at an address in range. -/
theorem failsWith_invalidAddress {i : Instr} (hi : i ∈ [.readLsRecord, .readNbRecord])
    (h : inRange s (arg0Low s) = false) : FailsWith i s .invalidArg :=
  .inr (.inr (.inr (.inr (.inr (.inr ⟨hi, nNodes_le_of_not_inRange h⟩)))))

theorem exec_readLsRecord_end : CommandEnd .readLsRecord s (exec .readLsRecord s) := by
  simp only [exec, execReadLsRecord]
  split_ifs with hrange
  · exact .error (failsWith_invalidAddress (by decide) hrange)
  · exact .result _ _

theorem exec_readNbRecord_end : CommandEnd .readNbRecord s (exec .readNbRecord s) := by
  simp only [exec, execReadNbRecord]
  split_ifs with hrange
  · exact .error (failsWith_invalidAddress (by decide) hrange)
  · exact .result _ _

end

/-! ### Every command -/

/-- Every command finishes OK, or raises an error of R260's table under R253's conditions. -/
theorem exec_end (i : Instr) (s : State) : CommandEnd i s (exec i s) := by
  cases i with
  | txAlloc => exact exec_txAlloc_end
  | txDiscard => exact exec_txDiscard_end
  | arqSend => exact exec_arqSend_end
  | rxRelease => exact exec_rxRelease_end
  | cksumGen => rw [exec_cksumGen]; exact checksumCommand_end (by decide) _
  | cksumVerify => rw [exec_cksumVerify]; exact checksumCommand_end (by decide) _
  | stuff => rw [exec_stuff]; exact codecCommand_end (by decide) _ fun h => .inr (.inr (.inr (.inl ⟨rfl, h⟩)))
  | unstuff => rw [exec_unstuff]; exact codecCommand_end (by decide) _ fun h => .inr (.inr (.inr (.inr (.inl ⟨rfl, h⟩))))
  | parsePacket => exact exec_parsePacket_end
  | readLsRecord => exact exec_readLsRecord_end
  | readNbRecord => exact exec_readNbRecord_end
  | nop => exact .ok s
  | arqAbort => exact .ok (abortSend s)
  | setOwnSeq => exact .ok _
  | softReset => exact .ok (softReset s)
  | notifyPingResponse | age | areNodesLinked | isDeviceOnline => exact .result _ _

/-- What either end leaves in CMD_STATUS, and that an error leaves the rest. -/
theorem CommandEnd.next {i : Instr} {s : State} {o : Host.Outcome State Fault Refusal} (h : CommandEnd i s o) :
    ∃ t, o = .next t ∧ t.cmdStatus.op = opcode i ∧
      (t.cmdStatus.code ≠ .ok →
        t = { s with cmdStatus := { code := t.cmdStatus.code, op := opcode i } } ∧ FailsWith i s t.cmdStatus.code) := by
  cases h with
  | ok u => exact ⟨_, rfl, rfl, fun hne => absurd rfl hne⟩
  | error hfail => exact ⟨_, rfl, rfl, fun _ => ⟨rfl, hfail⟩⟩

/-- Settles O9: a code other than OK is one the command fails with. -/
theorem commandErrorsFollowTheTable : Obligations.CommandErrorsFollowTheTable := by
  intro i s _ _
  obtain ⟨t, hexec, hop, herror⟩ := (exec_end i s).next
  have hfail {code : CmdCode} (hc : t.cmdStatus.code = code) (hne : code ≠ .ok) : FailsWith i s code :=
    hc ▸ (herror (hc ▸ hne)).2
  exact ⟨t, hexec, hop, fun hne => (herror hne).1, (hfail · nofun), (hfail · nofun), (hfail · nofun), (hfail · nofun),
    (hfail · nofun), (hfail · nofun)⟩

/-! ## The instances a step refuses (R5, R148, R264) -/

theorem instanceRefusal_flagEqualsEsc {p : Params} (h : p.flagByte = p.escByte) :
    instanceRefusal p = some .flagEqualsEsc :=
  if_pos (by rw [Params.framingOk, h, bne_self_eq_false])

theorem instanceRefusal_nodeCountOutOfRange {p : Params} (h : p.flagByte ≠ p.escByte)
    (hn : p.nNodes = 0 ∨ 32 < p.nNodes) : instanceRefusal p = some .nodeCountOutOfRange := by
  have hframing : p.framingOk = true := bne_iff_ne.2 h
  have hnodes : p.nodesOk = false := by
    rw [Params.nodesOk, Bool.and_eq_false_iff, decide_eq_false_iff_not, decide_eq_false_iff_not]
    omega
  rw [instanceRefusal, if_neg (by simp [hframing]), if_pos hnodes]

theorem step_refused {s : State} {r : Refusal} (h : instanceRefusal s.params = some r) : step s = .refused r := by
  rw [step, h]

theorem step_of_wf {s : State} (h : s.params.wf = true) : step s = runEvent (nextEvent s).1 (nextEvent s).2 := by
  rw [step, instanceRefusal_wf h]

/-- Settles O6: inside the spec a step is an event, which always ends in a next state. -/
theorem stepStopsOnlyOutsideTheSpec : Obligations.StepStopsOnlyOutsideTheSpec := fun _ =>
  ⟨fun hw => step_of_wf hw ▸ runEvent_next _ _, fun h => step_refused (instanceRefusal_flagEqualsEsc h),
    fun h hn => step_refused (instanceRefusal_nodeCountOutOfRange h hn)⟩

/-! ## STATUS and the interrupt output (R27, R265) -/

section
variable (s : State)

/-- The one-bit views of STATUS that are no W1C flags. -/
theorem statusWord_views :
    (statusWord s).getLsbD 1 = s.rx.ready ∧ (statusWord s).getLsbD 8 = s.tx.txOwned ∧
      (statusWord s).getLsbD 9 = s.port.ackPending ∧ (statusWord s).getLsbD 10 = s.port.dataPending ∧
      (statusWord s).getLsbD 11 = s.port.abortPending ∧ (statusWord s).getLsbD 16 = s.ack.latched ∧
      (statusWord s).getLsbD 17 = s.ack.seq ∧ (statusWord s).getLsbD 18 = s.rx.expected := by
  simp [-BitVec.getLsbD_eq_getElem, statusWord, bitAt_getLsbD, fieldAt_getLsbD_outside]

/-- STATUS below ARQ_STATE, as a number below 2 ^ 12, and the fields above it. -/
theorem statusWord_toNat : ∃ low < 2 ^ 12, (statusWord s).toNat =
    low + 2 ^ 12 * (arqStateBits s.tx.arqState).toNat + 2 ^ 14 * (txInflightBits s.port.txInflight).toNat +
      2 ^ 16 * s.ack.latched.toNat + 2 ^ 17 * s.ack.seq.toNat + 2 ^ 18 * s.rx.expected.toNat +
      2 ^ 24 * s.ack.src.toNat := by
  have hlow := packs_bitAt s.flags.txDone |>.bitAt 1 s.rx.ready |>.bitAt 2 s.flags.topoChanged |>.bitAt 3 s.flags.rxError
    |>.bitAt 4 s.flags.seqMismatch |>.bitAt 5 s.flags.rtcLatch |>.bitAt 6 s.flags.ctcLatch |>.bitAt 7 s.flags.accessErr
    |>.bitAt 8 s.tx.txOwned |>.bitAt 9 s.port.ackPending |>.bitAt 10 s.port.dataPending |>.bitAt 11 s.port.abortPending
  exact ⟨_, hlow.lt, hlow.fieldAt 12 _ |>.fieldAt 14 _ |>.bitAt 16 _ |>.bitAt 17 _ |>.bitAt 18 _ |>.fieldAt 24 _ |>.toNat⟩

theorem irq_eq : irq s = ((s.flags.txDone && s.irqEn.getLsbD 0) || (s.rx.ready && s.irqEn.getLsbD 1) ||
    (s.flags.topoChanged && s.irqEn.getLsbD 2) || (s.flags.rxError && s.irqEn.getLsbD 3) ||
    (s.flags.seqMismatch && s.irqEn.getLsbD 4) || (s.flags.rtcLatch && s.irqEn.getLsbD 5) ||
    (s.flags.ctcLatch && s.irqEn.getLsbD 6) || (s.flags.accessErr && s.irqEn.getLsbD 7)) := by
  have hrange : List.range 8 = [0, 1, 2, 3, 4, 5, 6, 7] := rfl
  simp only [irq, hrange, List.any_cons, List.any_nil, statusWord_flags, statusWord_views, Bool.or_false, Bool.or_assoc]

end

/-- Settles O42: the one-bit fields by the bits of the word, the wider ones by its value. -/
theorem statusFieldsAndIrq : Obligations.StatusFieldsAndIrq := by
  intro s v
  obtain ⟨h0, h2, h3, h4, h5, h6, h7⟩ := statusWord_flags s
  obtain ⟨h1, h8, h9, h10, h11, h16, h17, h18⟩ := statusWord_views s
  obtain ⟨low, hlow, hsum⟩ := statusWord_toNat s
  have hv : v.toNat = _ := hsum
  have hlatched := Bool.toNat_le s.ack.latched
  have hseq := Bool.toNat_le s.ack.seq
  have hexpected := Bool.toNat_le s.rx.expected
  have harq := (arqStateBits s.tx.arqState).isLt
  have hinflight := (txInflightBits s.port.txInflight).isLt
  have hsrc := s.ack.src.isLt
  refine ⟨h0, h1, h2, h3, h4, h5, h6, h7, h8, h9, h10, h11, ?arqState, ?txInflight, h16, h17, h18, ?reserved, ?src, irq_eq s⟩
  case arqState =>
    have hfield : v.toNat / 4096 % 4 = (arqStateBits s.tx.arqState).toNat := by omega
    rw [hfield]
    cases s.tx.arqState <;> rfl
  case txInflight =>
    have hfield : v.toNat / 16384 % 4 = (txInflightBits s.port.txInflight).toNat := by omega
    rw [hfield]
    cases s.port.txInflight <;> rfl
  case reserved => omega
  case src => omega

end Sys2Proof.Machine
end

section
/-! Reset and rest (70_reset_and_hazards.md): the values hardware reset leaves (R56, R290), and the states in which no
autonomous step changes anything (R297). -/

namespace Sys2Proof.Machine

/-! ## Reset values (R56, R290) -/

/-- With no source enabled the interrupt output is low, whatever STATUS holds (R265). -/
theorem irq_of_irqEn_zero {s : State} (h : s.irqEn = 0) : irq s = false := by simp [irq, h]

section
variable (p : Params) (agenda : List Event) (n : Nat)

/-- Only PARAMS and FRAMING report the parameters of the instance. -/
theorem readReg_resetOf {r : PortReg} (hparams : r ≠ .params) (hframing : r ≠ .framing) :
    readReg (State.resetOf p agenda n) r = readReg State.reset r := by
  cases r with
  | params => exact absurd rfl hparams
  | framing => exact absurd rfl hframing
  | _ => rfl

theorem bufRead_resetOf (b : Buf) (i : Nat) : bufRead (State.resetOf p agenda n).mem b i = 0 := ite_self _

theorem lsGet_resetOf (a : Byte) : lsGet (State.resetOf p agenda n) a = zeroLs :=
  List.getElem?_getD_replicate_default_eq ..

theorem nbGet_resetOf (a : Byte) : nbGet (State.resetOf p agenda n) a = zeroNb :=
  List.getElem?_getD_replicate_default_eq ..

theorem resetOf_resetValues : ResetValues (State.resetOf p agenda n) where
  regs r hparams hframing hctrl httl := by
    rw [readReg_resetOf p agenda n hparams hframing, readReg_reset_zero (by simp [hparams, hframing, hctrl, httl])]
  ctrl := (readReg_resetOf p agenda n (by decide) (by decide)).trans (by decide)
  ttlCfg := (readReg_resetOf p agenda n (by decide) (by decide)).trans (by decide)
  bytes := bufRead_resetOf p agenda n
  records a := ⟨lsGet_resetOf p agenda n a, nbGet_resetOf p agenda n a⟩
  sender := rfl
  port := rfl
  ack := rfl
  rx := rfl
  irq := irq_of_irqEn_zero rfl
  offer := rfl
  held := rfl

end

/-- Settles O1: the state after reset has the reset values whatever the parameters and the agenda are, and a reset event
leaves such a state. -/
theorem hardwareResetLeavesResetValues : Obligations.HardwareResetLeavesResetValues := by
  refine ⟨resetOf_resetValues .., by decide, by decide, fun s rest hw hagenda => ?_⟩
  exact ⟨hardReset { s with env.agenda := rest }, step_agenda hw hagenda, resetOf_resetValues .., rfl, rfl⟩

/-! ## Quiescent states (R297) -/

section
variable {s : State} (h : Quiescent s)
include h

theorem Quiescent.txIssue_rests : txIssue s = s := by
  refine Machine.txIssue_rests (Bool.eq_false_iff.2 fun hen => ?_)
  obtain ⟨-, hack | hdata⟩ := (txIssueEnabled_iff s).1 hen
  · simp [h.noAck] at hack
  · simp [h.noData] at hdata

theorem Quiescent.rxTake_rests : rxTake s = s := by
  refine Machine.rxTake_rests fun ⟨f, hf⟩ => ?_
  rcases h.noOffer with hnone | hdisabled
  · simp [hf.offer] at hnone
  · simp [hf.enabled] at hdisabled

theorem Quiescent.msTick_rests : msTick s = s :=
  Machine.msTick_rests fun ⟨hwait, _⟩ => by simpa [hwait] using h.idle

end

/-- Settles O58: a quiescent block has no frame to issue, to take or to complete, and waits for no ACK. -/
theorem quiescentStatesRest : Obligations.QuiescentStatesRest := fun _ h =>
  ⟨congrArg _ h.txIssue_rests, congrArg _ h.rxTake_rests, congrArg _ h.msTick_rests,
    fun ok => congrArg _ (txDone_none ok h.noFlight)⟩

end Sys2Proof.Machine
end
